-- ==== Sys2Proof/Word.lean ====
section
/-! DEFINITION. The one word size of the block: every command byte, segment pattern, data byte and small argument is
8 bits (00_scope.md R8). Bit 0 is the least significant bit (R9). -/

namespace Sys2Proof

/-- An 8-bit value (R8). -/
abbrev Byte := BitVec 8

end Sys2Proof
end

