-- ==== Sys2Proof/Config.lean ====
section
/-! DEFINITION. What an implementation fixes (00_scope.md R7) and the free values: values the spec leaves open,
opaque constants without a body, so that no proof can see what they are. -/

namespace Sys2Proof

/-- The parameters of R7 that the spec leaves to the implementation: the ones it marks *gk* (a named parameter with a
default, D19, D20), the one it marks OPEN, and ACK_EXPOSE (D4). None of them changes during a run (R37). -/
structure Params where
  /-- CMD_DATA, the class of the data-mode command. -/
  cmdData : Byte
  /-- DATA_FIXED_ADDR, the selector of fixed-address write mode. -/
  dataFixedAddr : Byte
  /-- CMD_ADDR, the class of the address command. -/
  cmdAddr : Byte
  /-- CMD_DISPLAY, the class of the display-control command. -/
  cmdDisplay : Byte
  /-- DISPLAY_ON, the on/off flag of the config byte. -/
  displayOn : Byte
  /-- DIGIT_TABLE[0..9], the patterns of the ten digits. -/
  digitTable : Vector Byte 10
  /-- MINUS, the pattern of the minus sign. -/
  minus : Byte
  /-- NUM_WIDTH, the width in bits of the signed value of display-number-decimal: OPEN in the spec. -/
  numWidth : Nat
  /-- ACK_EXPOSE: whether an operation returns the acks it sampled. -/
  ackExpose : Bool
  deriving DecidableEq, Repr

/-- R7's default values. NUM_WIDTH has no default in the spec; DESIGN CHOICE 16, the width 95_test_vectors.md uses
(log 7; statements hold for every width). -/
def Params.defaults : Params where
  cmdData := 0x40
  dataFixedAddr := 0x04
  cmdAddr := 0xC0
  cmdDisplay := 0x80
  displayOn := 0x08
  digitTable := #v[0x3F, 0x06, 0x5B, 0x4F, 0x66, 0x6D, 0x7D, 0x07, 0x7F, 0x6F]
  minus := 0x40
  numWidth := 16
  ackExpose := true

namespace Config

/-- DELAY_US: a Wait lasts at least this many microseconds (R7, R266). -/
def delayUs : Nat := 5

/-- MAX_DIGITS, the physical maximum of digits (R7). -/
def maxDigits : Nat := 4

/-- BRIGHTNESS_MAX (R7). -/
def brightnessMax : Byte := 7

/-- POS_MASK: position bits are p mod 4 (R7, R63). -/
def posMask : Byte := 0x03

/-- DP_BIT, the decimal point / colon bit of a segment pattern (R7, R85). -/
def dpBit : Byte := 0x80

/-- BLANK, the empty segment pattern (R7). -/
def blank : Byte := 0x00

/-- FREE VALUE (log 2): the acknowledgment level the environment gives an instance at its n-th sample, where State.slave
does not say it; the first argument is the instance's stream (log 2). R55: any draw is admitted, under no law. -/
opaque ackDraw : Nat → Nat → Bool

/-- FREE VALUE (log 3): SR outside WRITE_BYTE (R29). -/
opaque undefSr : Nat → Nat → Byte

/-- FREE VALUE (log 3): BITCNT outside WRITE_BYTE (R29), within its range 0..8. -/
opaque undefBitcnt : Nat → Nat → Fin 9

/-- FREE VALUE (log 3): BUF outside DISPLAY_NUMBER (R31). -/
opaque undefBuf : Nat → Nat → Vector Byte 4

/-- FREE VALUE (log 3): V outside DISPLAY_NUMBER (R31), a non-negative integer. -/
opaque undefV : Nat → Nat → Nat

/-- FREE VALUE (log 3): NEG outside DISPLAY_NUMBER (R31). -/
opaque undefNeg : Nat → Nat → Bool

end Config

end Sys2Proof
end

