-- ==== Sys2Proof/Syntax.lean ====
section
/-! DEFINITION. The instructions: one constructor per row of spec/opcode_table.json, and the request tuple of R95.
The block's instructions are the operations of its public surface (R3, R97), the micro-operations they are built from,
and the bytes it puts on the wire. -/

namespace Sys2Proof

/-- The two lines (R2, R11). -/
inductive LineName where
  | clk
  | dio
  deriving DecidableEq, Repr

/-- One constructor per row of spec/opcode_table.json. -/
inductive Instr where
  -- requests (30_encoding.md R95)
  /-- INIT enabled, brightness, size (R163). -/
  | init (enabled : Bool) (brightness size : Byte)
  /-- SET_ENABLED flag (R164). -/
  | setEnabled (flag : Bool)
  /-- SET_BRIGHTNESS level (R165). -/
  | setBrightness (level : Byte)
  /-- DISPLAY_SEGMENTS position, pattern (R166). -/
  | displaySegments (position pattern : Byte)
  /-- DISPLAY_DIGIT position, digit (R190). -/
  | displayDigit (position digit : Byte)
  /-- DISPLAY_COLON flag (R195). -/
  | displayColon (flag : Bool)
  /-- DISPLAY_NUMBER value, leading_zero, dot (R200). -/
  | displayNumber (value : Int) (leadingZero : Bool) (dot : Byte)
  /-- CLEAR (R210). -/
  | clear
  /-- A reserved selector 1xxx: 0x8..0xF (R95, R233); `low` is xxx. -/
  | reserved (low : BitVec 3)
  -- micro-operations (40_line.md, 41_framing.md, R162): not requestable, no encoding (R97)
  /-- SET_OUT L (R111). -/
  | setOut (line : LineName)
  /-- SET_IN L (R112). -/
  | setIn (line : LineName)
  /-- DRIVE_HIGH L (R113). -/
  | driveHigh (line : LineName)
  /-- DRIVE_LOW L (R114). -/
  | driveLow (line : LineName)
  /-- READ L (R115). -/
  | read (line : LineName)
  /-- WAIT (R116). -/
  | wait
  /-- START (R131). -/
  | start
  /-- WRITE_BYTE x (R133). -/
  | writeByte (x : Byte)
  /-- STOP (R137). -/
  | stop
  /-- SEND [b1, ..., bn] (R140). -/
  | send (bytes : List Byte)
  /-- SEND_CONFIG (R162). -/
  | sendConfig
  -- wire bytes (30_encoding.md R80 to R88)
  /-- CMD set-data-mode, fixed address, write (R81). -/
  | cmdSetDataMode
  /-- CMD set-address; `pp` is the position field (R82). -/
  | cmdSetAddress (pp : BitVec 2)
  /-- CMD set-display; `on` is bit 3, `bri` bits 2:0 (R83). -/
  | cmdSetDisplay (on : Bool) (bri : BitVec 3)
  /-- DATA segment pattern (R88). -/
  | dataPattern (x : Byte)
  deriving DecidableEq, Repr

/-- The requests: what a host may ask for (R95, R96). -/
def Instr.isRequest : Instr → Bool
  | .init _ _ _ | .setEnabled _ | .setBrightness _ | .displaySegments _ _ | .displayDigit _ _ => true
  | .displayColon _ | .displayNumber _ _ _ | .clear | .reserved _ => true
  | .setOut _ | .setIn _ | .driveHigh _ | .driveLow _ | .read _ | .wait => false
  | .start | .writeByte _ | .stop | .send _ | .sendConfig => false
  | .cmdSetDataMode | .cmdSetAddress _ | .cmdSetDisplay _ _ | .dataPattern _ => false

/-- The byte kinds of the wire (R80 to R88). -/
def Instr.isWireByte : Instr → Bool
  | .cmdSetDataMode | .cmdSetAddress _ | .cmdSetDisplay _ _ | .dataPattern _ => true
  | .init _ _ _ | .setEnabled _ | .setBrightness _ | .displaySegments _ _ | .displayDigit _ _ => false
  | .displayColon _ | .displayNumber _ _ _ | .clear | .reserved _ => false
  | .setOut _ | .setIn _ | .driveHigh _ | .driveLow _ | .read _ | .wait => false
  | .start | .writeByte _ | .stop | .send _ | .sendConfig => false

/-- A request: the pair (SEL, ARGS) of R95. An argument is written as the integer it stands for, as in the programs of
95_test_vectors.md; the spec gives the tuple no layout in bits beyond SEL's four (log 8). -/
structure Request where
  sel : BitVec 4
  args : List Int
  deriving DecidableEq, Repr

/-- Why the decoder rejects what is given to it. -/
inductive Reject where
  /-- The tuple has not as many arguments as R95 gives the operation. -/
  | arity
  /-- An argument lies outside the width R92 gives it. -/
  | range
  /-- A wire byte the block never emits (R91). -/
  | notEmitted
  deriving DecidableEq, Repr

/-- What the decoder answers. -/
inductive Decoded where
  | instr (i : Instr)
  | rejected (why : Reject)
  deriving DecidableEq, Repr

/-- The encoding of an instruction: a request tuple (R95) or a byte on the wire (R80). The micro-operations have none
(R97). -/
inductive Encoding where
  | request (r : Request)
  | wire (b : Byte)
  deriving DecidableEq, Repr

end Sys2Proof
end

