-- ==== Sys2Proof/WellFormed.lean ====
section
/-! DEFINITION. Which instructions are well formed: the checks on operands that their types do not make. -/

namespace Sys2Proof

/-- The least signed NUM_WIDTH-bit integer, -2^(NUM_WIDTH-1) (R92). -/
def leastValue (p : Params) : Int := -((2 ^ (p.numWidth - 1) : Nat) : Int)

/-- `value` is a signed NUM_WIDTH-bit integer (R92). -/
def fitsNumWidth (p : Params) (value : Int) : Bool :=
  decide (leastValue p ≤ value) && decide (value < -leastValue p)

/-- Well-formed instructions: the value of DISPLAY_NUMBER fits NUM_WIDTH bits (R92; the least value is well formed and
refused by the operation, R233), and SEND has one or two bytes (R90, R140). -/
def Instr.wellFormed (p : Params) : Instr → Bool
  | .displayNumber value _ _ => fitsNumWidth p value
  | .send bytes => bytes.length == 1 || bytes.length == 2
  | .init _ _ _ | .setEnabled _ | .setBrightness _ | .displaySegments _ _ | .displayDigit _ _ => true
  | .displayColon _ | .clear | .reserved _ => true
  | .setOut _ | .setIn _ | .driveHigh _ | .driveLow _ | .read _ | .wait => true
  | .start | .writeByte _ | .stop | .sendConfig => true
  | .cmdSetDataMode | .cmdSetAddress _ | .cmdSetDisplay _ _ | .dataPattern _ => true

end Sys2Proof
end

