-- ==== Sys2Proof/Decode.lean ====
section
/-! DEFINITION. The decoder of requests (R92, R95, R96) and of wire bytes (R80 to R91), total and rejecting by name, and
after it the encoder. -/

namespace Sys2Proof

/-- The one data-mode command the block emits, `CMD_DATA | DATA_FIXED_ADDR` (R81). -/
def dataCommand (p : Params) : Byte := p.cmdData ||| p.dataFixedAddr

/-- `ADDR(position) = CMD_ADDR | (position & POS_MASK)` (R82). -/
def addressCommand (p : Params) (position : Byte) : Byte := p.cmdAddr ||| (position &&& Config.posMask)

/-- `DISPCTL = CMD_DISPLAY | CONFIG` (R83). -/
def displayCommand (p : Params) (config : Byte) : Byte := p.cmdDisplay ||| config

/-- The config byte's two fields put together: ON as DISPLAY_ON, brightness in the low bits (R84). -/
def configByte (p : Params) (on : Bool) (brightness : Byte) : Byte :=
  (if on then p.displayOn else 0x00) ||| brightness

/-! ### Requests -/

/-- A u8 argument (R92): an integer in 0..255. -/
def byteArg (a : Int) : Option Byte :=
  if 0 ≤ a ∧ a < 256 then some (BitVec.ofInt 8 a) else none

/-- A Boolean argument (R92): zero is false and any nonzero value is true. -/
def boolArg (a : Int) : Bool := decide (a ≠ 0)

/-- How many arguments the operation of a selector takes (R95). -/
def arity (sel : BitVec 4) : Nat :=
  match sel.toNat with
  | 0 => 3
  | 1 => 1
  | 2 => 1
  | 3 => 2
  | 4 => 2
  | 5 => 1
  | 6 => 3
  | _ => 0

/-- An operation of one u8 argument, or the rejection. -/
def decodeByte (f : Byte → Instr) (a : Int) : Decoded :=
  match byteArg a with
  | some x => .instr (f x)
  | none => .rejected .range

/-- An operation of two u8 arguments, or the rejection. -/
def decodeBytes (f : Byte → Byte → Instr) (a b : Int) : Decoded :=
  match byteArg a, byteArg b with
  | some x, some y => .instr (f x y)
  | _, _ => .rejected .range

/-- DISPLAY_NUMBER's arguments (R92): a signed NUM_WIDTH-bit value, a Boolean, a u8. -/
def decodeNumber (p : Params) (value leadingZero dot : Int) : Decoded :=
  match fitsNumWidth p value, byteArg dot with
  | true, some d => .instr (.displayNumber value (boolArg leadingZero) d)
  | _, _ => .rejected .range

/-- The operation a request asks for (R95). A selector 0x8..0xF is reserved, whatever stands beside it (R96): which
refusal it gets is its meaning's, not the decoder's. -/
def decodeRequest (p : Params) (r : Request) : Decoded :=
  match r.sel.toNat, r.args with
  | 0, [enabled, brightness, size] => decodeBytes (.init (boolArg enabled)) brightness size
  | 0, _ => .rejected .arity
  | 1, [flag] => .instr (.setEnabled (boolArg flag))
  | 1, _ => .rejected .arity
  | 2, [level] => decodeByte .setBrightness level
  | 2, _ => .rejected .arity
  | 3, [position, pattern] => decodeBytes .displaySegments position pattern
  | 3, _ => .rejected .arity
  | 4, [position, digit] => decodeBytes .displayDigit position digit
  | 4, _ => .rejected .arity
  | 5, [flag] => .instr (.displayColon (boolArg flag))
  | 5, _ => .rejected .arity
  | 6, [value, leadingZero, dot] => decodeNumber p value leadingZero dot
  | 6, _ => .rejected .arity
  | 7, [] => .instr .clear
  | 7, _ => .rejected .arity
  | _, _ => .instr (.reserved (r.sel.extractLsb' 0 3))

/-! ### Wire bytes -/

/-- A byte of the wire. `second` says that it follows an address command in its transaction, where every byte is a
segment pattern (R88, R90); the other kinds are told apart by their class and the bits it leaves zero (R80 to R83). The
bytes the block never emits (R91) are rejected. -/
def decodeWire (p : Params) (second : Bool) (b : Byte) : Decoded :=
  if second then .instr (.dataPattern b)
  else if b = dataCommand p then .instr .cmdSetDataMode
  else if b &&& 0xFC = p.cmdAddr then .instr (.cmdSetAddress (b.extractLsb' 0 2))
  else if b &&& 0xF0 = p.cmdDisplay then .instr (.cmdSetDisplay (b.getLsbD 3) (b.extractLsb' 0 3))
  else .rejected .notEmitted

/-- The bytes of one transaction (R90): an address command is followed by one data byte, the other classes stand
alone. -/
def decodeTransaction (p : Params) (bytes : List Byte) : Option (List Instr) :=
  match bytes with
  | [c] =>
    match decodeWire p false c with
    | .instr .cmdSetDataMode => some [.cmdSetDataMode]
    | .instr (.cmdSetDisplay on bri) => some [.cmdSetDisplay on bri]
    | _ => none
  | [c, x] =>
    match decodeWire p false c with
    | .instr (.cmdSetAddress pp) => some [.cmdSetAddress pp, .dataPattern x]
    | _ => none
  | _ => none

/-! ### The encoder -/

/-- A Boolean argument as an integer (R93: 0 or 1). -/
def boolInt (b : Bool) : Int := if b then 1 else 0

/-- A u8 argument as an integer. -/
def byteInt (x : Byte) : Int := (x.toNat : Int)

/-- The request tuple of an operation (R95). -/
def encodeRequest : Instr → Option Request
  | .init enabled brightness size => some ⟨0x0, [boolInt enabled, byteInt brightness, byteInt size]⟩
  | .setEnabled flag => some ⟨0x1, [boolInt flag]⟩
  | .setBrightness level => some ⟨0x2, [byteInt level]⟩
  | .displaySegments position pattern => some ⟨0x3, [byteInt position, byteInt pattern]⟩
  | .displayDigit position digit => some ⟨0x4, [byteInt position, byteInt digit]⟩
  | .displayColon flag => some ⟨0x5, [boolInt flag]⟩
  | .displayNumber value leadingZero dot => some ⟨0x6, [value, boolInt leadingZero, byteInt dot]⟩
  | .clear => some ⟨0x7, []⟩
  | .reserved low => some ⟨(1#1 ++ low : BitVec 4), []⟩
  | .setOut _ | .setIn _ | .driveHigh _ | .driveLow _ | .read _ | .wait => none
  | .start | .writeByte _ | .stop | .send _ | .sendConfig => none
  | .cmdSetDataMode | .cmdSetAddress _ | .cmdSetDisplay _ _ | .dataPattern _ => none

/-- The wire byte of a byte kind (R81, R82, R83, R88). -/
def encodeWire (p : Params) : Instr → Option Byte
  | .cmdSetDataMode => some (dataCommand p)
  | .cmdSetAddress pp => some (addressCommand p (pp.setWidth 8))
  | .cmdSetDisplay on bri => some (displayCommand p (configByte p on (bri.setWidth 8)))
  | .dataPattern x => some x
  | .init _ _ _ | .setEnabled _ | .setBrightness _ | .displaySegments _ _ | .displayDigit _ _ => none
  | .displayColon _ | .displayNumber _ _ _ | .clear | .reserved _ => none
  | .setOut _ | .setIn _ | .driveHigh _ | .driveLow _ | .read _ | .wait => none
  | .start | .writeByte _ | .stop | .send _ | .sendConfig => none

/-- The encoding of an instruction (R80, R95); none for a micro-operation (R97). -/
def encode (p : Params) (i : Instr) : Option Encoding :=
  match encodeRequest i, encodeWire p i with
  | some r, _ => some (.request r)
  | none, some b => some (.wire b)
  | none, none => none

/-- The decoder over both kinds of encoding. `second` says that a wire byte follows an address command. -/
def decode (p : Params) (second : Bool) : Encoding → Decoded
  | .request r => decodeRequest p r
  | .wire b => decodeWire p second b

/-! ### The table's words -/

/-- The encoding that a word of the opcode table stands for. A word of which only SEL's four bits are set is a request
whose arguments are all zero (R95, log 8); any other word below 256 is a first byte of a transaction. -/
def tableEncoding (w : Nat) : Option Encoding :=
  if w < 16 then some (.request ⟨BitVec.ofNat 4 w, List.replicate (arity (BitVec.ofNat 4 w)) 0⟩)
  else if w < 256 then some (.wire (BitVec.ofNat 8 w))
  else none

/-- The instruction that the decoder reads from a word of the opcode table, under the default parameters. -/
def decodeTableWord (_nbits w : Nat) : Option Instr :=
  match tableEncoding w with
  | none => none
  | some e =>
    match decode Params.defaults false e with
    | .instr i => some i
    | .rejected _ => none

end Sys2Proof
end

