-- ==== Sys2Proof/Machine/State.lean ====
section
/-! DEFINITION. The state of one transmitter instance (10_state.md), what a run of it records (R57, R161, R232, R247),
and the ways a step can end. -/

namespace Sys2Proof.Machine

/-- The direction of a line (R21). -/
inductive Dir where
  | output
  | input
  deriving DecidableEq, Repr

/-- A line: its direction and its output latch, `true` standing for 1 (R21). -/
structure Line where
  dir : Dir
  latch : Bool
  deriving DecidableEq, Repr

/-- An event of the trace: one line primitive that the block performed (R57). `true` stands for 1, a high level. -/
inductive Event where
  | setDir (line : LineName) (dir : Dir)
  | drive (line : LineName) (level : Bool)
  | wait
  | sample (line : LineName) (level : Bool)
  deriving DecidableEq, Repr

/-- The sequencer position SEQ, in place of a program counter (R25): `busy op k` says that `op` is being run and that
`k` is the index of its next event. -/
inductive Seq where
  | idle
  | busy (op : Instr) (k : Nat)
  deriving DecidableEq, Repr

/-- The working registers of DISPLAY_NUMBER (R31). -/
structure NumRegs where
  buf : Vector Byte 4
  v : Nat
  neg : Bool
  deriving DecidableEq, Repr

/-- One micro-step of an operation: a line primitive (at most one event of the trace), or a register transfer between
two of them. The sequences of R131 to R212 are lists of these. -/
inductive Micro where
  /-- SET_OUT and SET_IN (R111, R112). -/
  | setDir (line : LineName) (dir : Dir)
  /-- DRIVE_HIGH and DRIVE_LOW (R113, R114). -/
  | drive (line : LineName) (level : Bool)
  /-- WAIT (R116). -/
  | wait
  /-- READ (R115). -/
  | sample (line : LineName)
  /-- `a <- READ DIO; ACK <- a` (R133). -/
  | sampleAck
  /-- The first event of the acknowledged path, `if a = 0: SET_OUT DIO` (R133). -/
  | ackOutput
  /-- The second event of the acknowledged path, `if a = 0: DRIVE_LOW DIO` (R133). -/
  | ackLow
  /-- `SR <- x`, with no data bit sent yet (R133, R29). -/
  | loadSr (x : Byte)
  /-- DIO driven to SR[0] (R133). -/
  | driveBit
  /-- `SR <- SR >> 1`, data bit `i` sent (R133, R29). -/
  | shiftSr (i : Fin 8)
  /-- The end of WRITE_BYTE: SR and BITCNT are undefined from here (R29). -/
  | endByte
  /-- `CONFIG <- c` (R163 to R165). -/
  | setConfig (c : Byte)
  /-- `SIZE <- n` (R163). -/
  | setSize (n : Nat)
  /-- `SEG1 <- x` (R163, R190, R195, R210). -/
  | setSeg1 (x : Byte)
  /-- `INIT <- true` (R163). -/
  | setInit
  /-- BUF, V and NEG as the digit loop of DISPLAY_NUMBER leaves them (R200). -/
  | setNumber (regs : NumRegs)
  /-- The end of DISPLAY_NUMBER: BUF, V and NEG are undefined from here (R31). -/
  | endNumber
  deriving DecidableEq, Repr

/-- The reasons of a refusal (R233). -/
inductive RefuseReason where
  | notInitialized
  | reInit
  | badSize
  | badValue
  | badSelector
  deriving DecidableEq, Repr

/-- The block raises no exception and has no fault state (R230): there is no fault, and no instruction raises one. -/
inductive Fault where
  deriving DecidableEq, Repr

/-- Why the model stops without a next state. A refusal of R233 is not one of these: it changes nothing of the instance,
sets the run's mark and the run goes on (R232), so it is a next state. -/
inductive Refusal where
  /-- Raised by an arm of `exec` for an instruction that has no meaning yet. Safe: the model stops. -/
  | notModelled (mnemonic : String)
  /-- Raised by `step` when the tuple at the head of the pending requests is no request of R95 (a wrong number of
  arguments, an argument outside its width). Safe: the spec knows no such request, and the model stops (log 8). -/
  | malformedRequest (why : Reject)
  deriving DecidableEq, Repr

/-- The state of one instance (R20), the record of its run (R57, R161, R232), the parameters (R7), and the model's own
fields. Plain data. -/
structure State where
  /-- CLK (R21). -/
  clk : Line
  /-- DIO (R21). -/
  dio : Line
  /-- INIT: initialize has completed (R26). -/
  initDone : Bool
  /-- SIZE, the display size 1..4 (R23). -/
  size : Nat
  /-- CONFIG: ON in bit 3, brightness in bits 2:0 (R24). -/
  config : Byte
  /-- SEG1, the cached segment byte of position 1 (R27). -/
  seg1 : Byte
  /-- ACK, the level last sampled by WRITE_BYTE: `false` is 0, acknowledged (R28). -/
  ack : Bool
  /-- SEQ, the sequencer position (R25). -/
  seq : Seq
  /-- SR, the serializer's shift register, transient (R29). -/
  sr : Byte
  /-- BITCNT, the count of data bits sent, transient (R29). -/
  bitcnt : Fin 9
  /-- BUF[0..3], the digit buffer, transient (R31). -/
  buf : Vector Byte 4
  /-- V, the magnitude still to be rendered, transient (R31). -/
  v : Nat
  /-- NEG, transient (R31). -/
  neg : Bool
  /-- The trace, oldest event first (R57). -/
  trace : List Event
  /-- The ack list of each completed operation, oldest first, when ACK_EXPOSE is true (R161, R247). -/
  results : List (List Bool)
  /-- The refusal mark: the recorded reasons, oldest first. The mark is set when the list is not empty; nothing clears
  it (R232, R233). -/
  refusals : List RefuseReason
  /-- The parameters (R7), which no step changes (R37, log 6). -/
  params : Params
  /-- The model's own: the requests presented and not yet accepted, first come first (R95, R96, log 8). -/
  pending : List Request
  /-- The model's own: the acknowledgment levels the environment is known to give at the coming samples (R55, log 2). -/
  slave : List Bool
  /-- The model's own: how many samples were taken, the index of the free draw (R55, log 2). -/
  samples : Nat
  /-- The model's own: which stream of free values is this instance's, so that nothing relates the acknowledgments or the
  undefined registers of two instances (R55, R243, log 2). No step changes it. -/
  stream : Nat
  /-- The model's own: the index of the next free value of an undefined register (log 3). -/
  undefs : Nat
  /-- The model's own: the micro-steps the operation in progress has still to take (R25, log 4). -/
  todo : List Micro
  /-- The model's own: the levels the operation in progress has returned so far (R140's `acks`, log 4). -/
  ret : List Bool
  deriving DecidableEq, Repr

/-- A newly created instance (R35, R260, R261): INIT false, SEQ IDLE, nothing performed. Every other register is
unspecified there; the values it holds here are the model's (log 1). -/
def State.reset : State where
  clk := ⟨.input, false⟩
  dio := ⟨.input, false⟩
  initDone := false
  size := 1
  config := 0x00
  seg1 := 0x00
  ack := false
  seq := .idle
  sr := 0x00
  bitcnt := 0
  buf := #v[0x00, 0x00, 0x00, 0x00]
  v := 0
  neg := false
  trace := []
  results := []
  refusals := []
  params := Params.defaults
  pending := []
  slave := []
  samples := 0
  stream := 0
  undefs := 0
  todo := []
  ret := []

end Sys2Proof.Machine
end

