-- ==== Sys2Proof/Machine/Ops.lean ====
section
/-! DEFINITION. The named operations over the state: the lines and the trace, the sample and its draw, one micro-step and
a run of them, and the sequencer: accepting a request, refusing one, completing an operation. The block has no exception
to take and none to return from (R230, R238, R239); its one shared outcome beside completing is the refusal (R232). -/

namespace Sys2Proof.Machine

/-! ### Lines and trace -/

/-- The next event's index moves on by one while an operation is in progress (R25). -/
def Seq.advance : Seq → Seq
  | .idle => .idle
  | .busy op k => .busy op (k + 1)

/-- Append one event to the trace (R57). -/
def emit (e : Event) (s : State) : State :=
  { s with trace := s.trace ++ [e], seq := s.seq.advance }

/-- A line's two state bits (R21). -/
def State.line (s : State) : LineName → Line
  | .clk => s.clk
  | .dio => s.dio

/-- Write a line's two state bits (R21). -/
def State.setLine (s : State) (l : LineName) (x : Line) : State :=
  match l with
  | .clk => { s with clk := x }
  | .dio => { s with dio := x }

/-- `SetDir(L, d)`: write the direction, the latch staying (R111, R112). -/
def setDir (l : LineName) (d : Dir) (s : State) : State :=
  emit (.setDir l d) (s.setLine l { s.line l with dir := d })

/-- `Drive(L, b)`: write the latch whatever the direction is (R113, R114, R21). -/
def drive (l : LineName) (b : Bool) (s : State) : State :=
  emit (.drive l b) (s.setLine l { s.line l with latch := b })

/-- `Wait()`: no state but the trace (R116). -/
def waitUnit (s : State) : State := emit .wait s

/-- The level the environment gives at the coming sample (R55): what State.slave says, else a free value of this instance's
own stream. The spec gives the draws no law, also between instances (R55, R243): DESIGN CHOICE, instances of different
streams have unrelated draws, whatever they have sampled (log 2). -/
def draw (s : State) : Bool :=
  match s.slave with
  | a :: _ => a
  | [] => Config.ackDraw s.stream s.samples

/-- The coming sample is taken: the environment's next level is consumed (R55). -/
def State.consumeDraw (s : State) : State :=
  { s with slave := s.slave.tail, samples := s.samples + 1 }

/-- `a <- Sample(L)`: append the sample and hand its level to the caller; no line changes (R56, R115). -/
def sample (l : LineName) (s : State) : State :=
  emit (.sample l (draw s)) { s.consumeDraw with ret := s.ret ++ [draw s] }

/-- `a <- READ DIO; ACK <- a` (R133). -/
def sampleAck (s : State) : State := { sample .dio s with ack := draw s }

/-! ### Register transfers -/

/-- SR and BITCNT take free values: they are undefined outside WRITE_BYTE (R29, log 3). -/
def undefSerializer (s : State) : State :=
  { s with sr := Config.undefSr s.stream s.undefs, bitcnt := Config.undefBitcnt s.stream s.undefs, undefs := s.undefs + 1 }

/-- BUF, V and NEG take free values: they are undefined outside DISPLAY_NUMBER (R31, log 3). -/
def undefNumber (s : State) : State :=
  { s with buf := Config.undefBuf s.stream s.undefs, v := Config.undefV s.stream s.undefs, neg := Config.undefNeg s.stream s.undefs,
           undefs := s.undefs + 1 }

/-- SR is loaded, no bit sent (R29, R133). -/
def loadSr (x : Byte) (s : State) : State := { s with sr := x, bitcnt := 0 }

/-- The data line takes SR[0] (R133). -/
def driveBit (s : State) : State := drive .dio (s.sr.getLsbD 0) s

/-- SR is shifted right by one, data bit `i` counted (R29, R133). -/
def shiftSr (i : Fin 8) (s : State) : State := { s with sr := s.sr >>> 1, bitcnt := i.succ }

/-- One step of the acknowledged path: taken when the sampled level was 0 (R133). R133's local `a` has no register in R20;
DESIGN CHOICE: between the sample and this step it is held in ACK, which R133 has just given the same value, and this step
reads that field (log 14). No rule makes ACK's value choose anything else (R28). -/
def ifAcked (f : State → State) (s : State) : State := if s.ack then s else f s

/-- BUF, V and NEG are written (R200). -/
def setNumber (regs : NumRegs) (s : State) : State :=
  { s with buf := regs.buf, v := regs.v, neg := regs.neg }

/-! ### Micro-steps -/

/-- One micro-step. -/
def micro : Micro → State → State
  | .setDir l d, s => setDir l d s
  | .drive l b, s => drive l b s
  | .wait, s => waitUnit s
  | .sample l, s => sample l s
  | .sampleAck, s => sampleAck s
  | .ackOutput, s => ifAcked (setDir .dio .output) s
  | .ackLow, s => ifAcked (drive .dio false) s
  | .loadSr x, s => loadSr x s
  | .driveBit, s => driveBit s
  | .shiftSr i, s => shiftSr i s
  | .endByte, s => undefSerializer s
  | .setConfig c, s => { s with config := c }
  | .setSize n, s => { s with size := n }
  | .setSeg1 x, s => { s with seg1 := x }
  | .setInit, s => { s with initDone := true }
  | .setNumber regs, s => setNumber regs s
  | .endNumber, s => undefNumber s

/-- Micro-steps in the order written (R12). -/
def run : List Micro → State → State
  | [], s => s
  | m :: ms, s => run ms (micro m s)

/-- A micro-operation on its own: its sequence, with the levels it returns. No host may request one (R97), and `step` runs
none on its own, so the spec does not say what SEQ does then. DESIGN CHOICE (log 15): at IDLE SEQ stays IDLE; in BUSY(op, k)
it runs between two micro-steps of `op`, `k` counts its events too, and `ret` holds what it returned. -/
def perform (prog : List Micro) (s : State) : State := run prog { s with ret := [] }

/-! ### The sequencer -/

/-- A request is accepted: SEQ is BUSY at the operation's first event, nothing sampled yet (R25, R140). -/
def accept (op : Instr) (prog : List Micro) (s : State) : State :=
  { s with seq := .busy op 0, todo := prog, ret := [] }

/-- After its last event the operation ends: SEQ returns to IDLE (R25), and an operation of the public surface yields its
ack list when ACK_EXPOSE is true, nothing when it is false (R161). -/
def retire (s : State) : State :=
  match s.seq with
  | .idle => s
  | .busy op _ =>
    { s with seq := .idle, todo := [],
             results := if op.isRequest && s.params.ackExpose then s.results ++ [s.ret] else s.results }

/-- The operation in progress runs to completion, as one uninterrupted sequence of events (R70). With none in progress
nothing happens. -/
def finish (s : State) : State :=
  match s.seq with
  | .idle => s
  | .busy _ _ => retire (run s.todo { s with todo := [] })

/-- The sequencer's own pace, one micro-step at a time (D1): the next micro-step of the operation in progress, or its
end. -/
def tick (s : State) : State :=
  match s.seq, s.todo with
  | .idle, _ => s
  | .busy _ _, [] => retire s
  | .busy _ _, m :: ms => micro m { s with todo := ms }

/-- Refuse a request: no state of the instance changes, no event, no result; the reason is recorded in the run's mark
(R232). -/
def refuse (why : RefuseReason) (s : State) : State := { s with refusals := s.refusals ++ [why] }

/-- A request to the instance. It waits until SEQ is IDLE (R25, R96), which finishing the operation in progress brings
about; then its checks are made (R233), and it is refused or accepted and run to completion (R70, R160). -/
def request (op : Instr) (check : State → Option RefuseReason) (prog : State → List Micro) (s : State) : State :=
  match check (finish s) with
  | some why => refuse why (finish s)
  | none => finish (accept op (prog (finish s)) (finish s))

/-- The check of every operation but INIT (R233). -/
def checkInitialized (s : State) : Option RefuseReason :=
  if s.initDone then none else some .notInitialized

/-! ### Requests presented and fetched -/

/-- The host presents a request (R246): it waits behind those presented before it (R269). -/
def present (r : Request) (s : State) : State := { s with pending := s.pending ++ [r] }

/-- The next request to accept, and the state without it. -/
def fetch (s : State) : Option (Request × State) :=
  match s.pending with
  | [] => none
  | r :: rest => some (r, { s with pending := rest })

/-- The idle instance with a request at the head of those pending: the next step fetches it. -/
def placeRequest (r : Request) (s : State) : State :=
  { s with seq := .idle, todo := [], pending := r :: s.pending }

/-- The instance with the sequence of an internal operation in progress, at its first event: the next step runs it. -/
def placeInternal (op : Instr) (prog : List Micro) (s : State) : State := accept op prog s

end Sys2Proof.Machine
end

