-- ==== Sys2Proof/Machine/Flags.lean ====
section
/-! DEFINITION. The flag-like bits and the fields of CONFIG (R24, R28, R32). ACK is written by every WRITE_BYTE
(Machine/Ops.lean `sampleAck`) and read by nothing outside it; there are no condition codes (R32). -/

namespace Sys2Proof.Machine

/-- CONFIG.BRI, bits 2:0 (R24). -/
def bri (config : Byte) : Byte := config &&& 0x07

/-- CONFIG.ON, bit 3 (R24). -/
def isOn (config : Byte) : Bool := config.getLsbD 3

/-- `min(b, BRIGHTNESS_MAX)` on unsigned values (R84). -/
def clampBrightness (b : Byte) : Byte := if b ≤ Config.brightnessMax then b else Config.brightnessMax

/-- `CFG(en, b) = (en ? DISPLAY_ON : 0x00) | min(b, BRIGHTNESS_MAX)` (R84). -/
def cfg (p : Params) (en : Bool) (b : Byte) : Byte := configByte p en (clampBrightness b)

end Sys2Proof.Machine
end

