-- ==== Sys2Proof/Machine/Operands.lean ====
section
/-! DEFINITION. The operand forms (R63, R85 to R87, R92): masked positions, the digit lookup, the decimal point, and the
rendering of a signed number into patterns (R200). -/

namespace Sys2Proof.Machine

/-- A position as it is transmitted, `position & POS_MASK` (R63). -/
def maskedPosition (position : Byte) : Byte := position &&& Config.posMask

/-- The colon test of DISPLAY_DIGIT, on the masked position (R92, R190). -/
def isColonPosition (position : Byte) : Bool := decide (maskedPosition position = 1)

/-- `SEGOF(d)`: the digit's pattern for d < 10, else BLANK (R86). -/
def segOf (p : Params) (d : Nat) : Byte :=
  if h : d < 10 then p.digitTable[d] else Config.blank

/-- `x | DP_BIT` (R85). -/
def setDot (x : Byte) : Byte := x ||| Config.dpBit

/-- `x & ~DP_BIT` (R195). -/
def clearDot (x : Byte) : Byte := x &&& ~~~Config.dpBit

/-- The digit loop of R200, `for i in n-1 downto first`, from the last position down: `loop (i + 1)` renders position i
and goes on below it. -/
def digitLoop (p : Params) (leadingZero : Bool) (first : Nat) : Nat → NumRegs → NumRegs
  | 0, r => r
  | i + 1, r =>
    if i < first then r
    else
      digitLoop p leadingZero first i
        { r with
          buf := r.buf.setIfInBounds i
            (if r.v = 0 ∧ leadingZero = false then Config.blank else segOf p (r.v % 10)),
          v := r.v / 10 }

/-- The blank loop of R200's zero branch, `for i in 0..n-2: BUF[i] <- BLANK`. -/
def blankLoop : Nat → NumRegs → NumRegs
  | 0, r => r
  | i + 1, r => blankLoop i { r with buf := r.buf.setIfInBounds i Config.blank }

/-- R200's zero branch: blanks, and digit 0 at the last position; no decimal point (C8). -/
def renderZero (p : Params) : Nat → NumRegs → NumRegs
  | 0, r => r
  | last + 1, r => { blankLoop last r with buf := (blankLoop last r).buf.setIfInBounds last (segOf p 0) }

/-- R200's decimal point: at a position 0 < dot < n (D17). -/
def renderDot (n dot : Nat) (r : NumRegs) : NumRegs :=
  if dot ≠ 0 ∧ dot < n then { r with buf := r.buf.setIfInBounds dot (setDot (r.buf[dot]?.getD Config.blank)) } else r

/-- R200's other branch: NEG, V, the minus sign at position 0, the digits, the decimal point. -/
def renderDigits (p : Params) (n : Nat) (value : Int) (leadingZero : Bool) (dot : Nat) (r : NumRegs) : NumRegs :=
  let neg := decide (value < 0)
  let buf := if neg then r.buf.setIfInBounds 0 p.minus else r.buf
  renderDot n dot (digitLoop p leadingZero (if neg then 1 else 0) n { buf := buf, v := value.natAbs, neg := neg })

/-- BUF, V and NEG as R200 leaves them before the positions are written, on a display of n positions. -/
def renderNumber (p : Params) (n : Nat) (value : Int) (leadingZero : Bool) (dot : Nat) (r : NumRegs) : NumRegs :=
  if value = 0 ∧ leadingZero = false then renderZero p n r else renderDigits p n value leadingZero dot r

end Sys2Proof.Machine
end

