-- ==== Sys2Proof/Machine/Line.lean ====
section
/-! DEFINITION. The line micro-operations (40_line.md): one event each, unconditional, no exception (R110). -/

namespace Sys2Proof.Machine

/-- SET_OUT L (R111). -/
def execSetOut (l : LineName) (s : State) : Host.Outcome State Fault Refusal :=
  .next (perform [.setDir l .output] s)

/-- SET_IN L (R112). -/
def execSetIn (l : LineName) (s : State) : Host.Outcome State Fault Refusal :=
  .next (perform [.setDir l .input] s)

/-- DRIVE_HIGH L (R113). -/
def execDriveHigh (l : LineName) (s : State) : Host.Outcome State Fault Refusal :=
  .next (perform [.drive l true] s)

/-- DRIVE_LOW L (R114). -/
def execDriveLow (l : LineName) (s : State) : Host.Outcome State Fault Refusal :=
  .next (perform [.drive l false] s)

/-- READ L (R115). On any line and in any configuration the level is the environment's draw: R115 gives ANY where the
line is not the released DIO. -/
def execRead (l : LineName) (s : State) : Host.Outcome State Fault Refusal :=
  .next (perform [.sample l] s)

/-- WAIT (R116). -/
def execWait (s : State) : Host.Outcome State Fault Refusal :=
  .next (perform [.wait] s)

end Sys2Proof.Machine
end

