-- ==== Sys2Proof/Machine/Framing.lean ====
section
/-! DEFINITION. The framer and the byte serializer (41_framing.md): START, WRITE_BYTE, STOP, SEND, as sequences of
micro-steps. The Waits stand where the step lists put them (R130, C1, D8). -/

namespace Sys2Proof.Machine

/-- START (R131). -/
def startSteps : List Micro := [.drive .dio true, .drive .clk true, .wait, .drive .dio false]

/-- One data bit of WRITE_BYTE (R133). -/
def bitSteps (i : Fin 8) : List Micro :=
  [.drive .clk false, .wait, .driveBit, .drive .clk true, .wait, .shiftSr i]

/-- The data phase of WRITE_BYTE: 8 clocks, least significant bit first (R58, R133). -/
def dataSteps : List Micro :=
  bitSteps 0 ++ (bitSteps 1 ++ (bitSteps 2 ++ (bitSteps 3 ++ (bitSteps 4 ++ (bitSteps 5 ++ (bitSteps 6 ++ bitSteps 7))))))

/-- The acknowledgment phase of WRITE_BYTE, the ninth clock (R133). -/
def ackSteps : List Micro :=
  [.drive .clk false, .setDir .dio .input, .drive .dio true, .wait, .sampleAck, .ackOutput, .ackLow, .wait,
    .drive .clk true, .wait, .drive .clk false, .wait, .setDir .dio .output]

/-- WRITE_BYTE x (R133). After it SR and BITCNT are undefined (R29). -/
def byteSteps (x : Byte) : List Micro := .loadSr x :: (dataSteps ++ (ackSteps ++ [.endByte]))

/-- STOP (R137). -/
def stopSteps : List Micro :=
  [.drive .clk false, .wait, .drive .dio false, .wait, .drive .clk true, .wait, .drive .dio true]

/-- The bytes of one transaction, one WRITE_BYTE each (R140). -/
def bytesSteps : List Byte → List Micro
  | [] => []
  | x :: xs => byteSteps x ++ bytesSteps xs

/-- SEND: START, one WRITE_BYTE a byte, STOP (R60, R140). -/
def sendSteps (bytes : List Byte) : List Micro := startSteps ++ (bytesSteps bytes ++ stopSteps)

/-- START (R131). -/
def execStart (s : State) : Host.Outcome State Fault Refusal := .next (perform startSteps s)

/-- WRITE_BYTE x (R133). -/
def execWriteByte (x : Byte) (s : State) : Host.Outcome State Fault Refusal := .next (perform (byteSteps x) s)

/-- STOP (R137). -/
def execStop (s : State) : Host.Outcome State Fault Refusal := .next (perform stopSteps s)

/-- SEND bytes (R140). -/
def execSend (bytes : List Byte) (s : State) : Host.Outcome State Fault Refusal := .next (perform (sendSteps bytes) s)

end Sys2Proof.Machine
end

