-- ==== Sys2Proof/Machine/Commands.lean ====
section
/-! DEFINITION. The command operations (42_commands.md): SEND_CONFIG, INIT, SET_ENABLED, SET_BRIGHTNESS,
DISPLAY_SEGMENTS. -/

namespace Sys2Proof.Machine

/-- The transaction of SEND_CONFIG while CONFIG holds `config`: one display-control byte (R83, R162). -/
def configSteps (p : Params) (config : Byte) : List Micro := sendSteps [displayCommand p config]

/-- `SEGS(position, pattern)`: the data command in its own transaction, then address and pattern in one (R94, R166,
R268). -/
def segsSteps (p : Params) (position pattern : Byte) : List Micro :=
  sendSteps [dataCommand p] ++ sendSteps [addressCommand p position, pattern]

/-- INIT's refusal checks, in their order (R163, R233). -/
def checkInit (size : Byte) (s : State) : Option RefuseReason :=
  if s.initDone then some .reInit
  else if size.toNat < 1 ∨ Config.maxDigits < size.toNat then some .badSize
  else none

/-- INIT's line set-up: both lines outputs, both driven low (R163, D32). -/
def setupSteps : List Micro :=
  [.setDir .clk .output, .setDir .dio .output, .drive .clk false, .drive .dio false]

/-- INIT's sequence (R163). -/
def initSteps (p : Params) (config : Byte) (size : Byte) : List Micro :=
  setupSteps ++ (.setConfig config :: (configSteps p config ++ [.setSize size.toNat, .setSeg1 0x00, .setInit]))

/-- Write CONFIG and send it (R164, R165). -/
def reconfigureSteps (p : Params) (config : Byte) : List Micro := .setConfig config :: configSteps p config

/-- SEND_CONFIG (R162). -/
def execSendConfig (s : State) : Host.Outcome State Fault Refusal := .next (perform (configSteps s.params s.config) s)

/-- INIT enabled, brightness, size (R163). -/
def execInit (enabled : Bool) (brightness size : Byte) (s : State) : Host.Outcome State Fault Refusal :=
  .next (request (.init enabled brightness size) (checkInit size)
    (fun s => initSteps s.params (cfg s.params enabled brightness) size) s)

/-- SET_ENABLED flag: the brightness is preserved (R164). -/
def execSetEnabled (flag : Bool) (s : State) : Host.Outcome State Fault Refusal :=
  .next (request (.setEnabled flag) checkInitialized
    (fun s => reconfigureSteps s.params (cfg s.params flag (bri s.config))) s)

/-- SET_BRIGHTNESS level: the on/off flag is preserved (R165). -/
def execSetBrightness (level : Byte) (s : State) : Host.Outcome State Fault Refusal :=
  .next (request (.setBrightness level) checkInitialized
    (fun s => reconfigureSteps s.params (cfg s.params (isOn s.config) level)) s)

/-- DISPLAY_SEGMENTS position, pattern: SIZE, CONFIG and SEG1 are neither read nor written (R166, R167). -/
def execDisplaySegments (position pattern : Byte) (s : State) : Host.Outcome State Fault Refusal :=
  .next (request (.displaySegments position pattern) checkInitialized
    (fun s => segsSteps s.params position pattern) s)

end Sys2Proof.Machine
end

