-- ==== Sys2Proof/Machine/Rendering.lean ====
section
/-! DEFINITION. The rendering operations (43_rendering.md): DISPLAY_DIGIT, DISPLAY_COLON, DISPLAY_NUMBER, CLEAR. They
reach the wire only through SEGS. -/

namespace Sys2Proof.Machine

/-- DISPLAY_DIGIT's sequence while SEG1 holds `seg1` (R190): at the colon position the cached colon bit is merged and
the cache updated. -/
def digitSteps (p : Params) (seg1 position digit : Byte) : List Micro :=
  let seg := segOf p digit.toNat
  let merged := seg ||| (seg1 &&& Config.dpBit)
  if isColonPosition position then .setSeg1 merged :: segsSteps p position merged else segsSteps p position seg

/-- The cached byte with its colon bit set or cleared (R195). -/
def colonByte (flag : Bool) (seg1 : Byte) : Byte := if flag then setDot seg1 else clearDot seg1

/-- DISPLAY_COLON's sequence (R195). -/
def colonSteps (p : Params) (flag : Bool) (seg1 : Byte) : List Micro :=
  .setSeg1 (colonByte flag seg1) :: segsSteps p 1 (colonByte flag seg1)

/-- `SEGS(i, pattern)` for i ascending from `i` (R200, R210, D18). -/
def positionsSteps (p : Params) : Nat → List Byte → List Micro
  | _, [] => []
  | i, x :: xs => segsSteps p (BitVec.ofNat 8 i) x ++ positionsSteps p (i + 1) xs

/-- The working registers as the state holds them (R31). -/
def State.numRegs (s : State) : NumRegs := ⟨s.buf, s.v, s.neg⟩

/-- The patterns BUF[0..n-1] (R200). -/
def patterns (n : Nat) (buf : Vector Byte 4) : List Byte := buf.toList.take n

/-- DISPLAY_NUMBER's sequence once BUF, V and NEG are `regs`, on n positions (R200). After it they are undefined
(R31). -/
def numberSteps (p : Params) (n : Nat) (regs : NumRegs) : List Micro :=
  .setNumber regs :: (positionsSteps p 0 (patterns n regs.buf) ++ [.endNumber])

/-- CLEAR's sequence on n positions (R210). -/
def clearSteps (p : Params) (n : Nat) : List Micro :=
  .setSeg1 0x00 :: positionsSteps p 0 (List.replicate n Config.blank)

/-- DISPLAY_NUMBER's refusal checks, in their order (R200, R233). -/
def checkNumber (value : Int) (s : State) : Option RefuseReason :=
  if s.initDone = false then some .notInitialized
  else if value = leastValue s.params then some .badValue
  else none

/-- DISPLAY_DIGIT position, digit (R190). -/
def execDisplayDigit (position digit : Byte) (s : State) : Host.Outcome State Fault Refusal :=
  .next (request (.displayDigit position digit) checkInitialized
    (fun s => digitSteps s.params s.seg1 position digit) s)

/-- DISPLAY_COLON flag (R195). -/
def execDisplayColon (flag : Bool) (s : State) : Host.Outcome State Fault Refusal :=
  .next (request (.displayColon flag) checkInitialized (fun s => colonSteps s.params flag s.seg1) s)

/-- DISPLAY_NUMBER value, leading_zero, dot (R200). SEG1 is not written (D11). -/
def execDisplayNumber (value : Int) (leadingZero : Bool) (dot : Byte) (s : State) : Host.Outcome State Fault Refusal :=
  .next (request (.displayNumber value leadingZero dot) (checkNumber value)
    (fun s => numberSteps s.params s.size (renderNumber s.params s.size value leadingZero dot.toNat s.numRegs)) s)

/-- CLEAR (R210). -/
def execClear (s : State) : Host.Outcome State Fault Refusal :=
  .next (request .clear checkInitialized (fun s => clearSteps s.params s.size) s)

/-- A reserved selector: refused BadSelector, before every other check (R96, R233). -/
def execReserved (low : BitVec 3) (s : State) : Host.Outcome State Fault Refusal :=
  .next (request (.reserved low) (fun _ => some .badSelector) (fun _ => []) s)

end Sys2Proof.Machine
end

