-- ==== Sys2Proof/Machine/Wire.lean ====
section
/-! DEFINITION. The wire bytes (30_encoding.md R80 to R88). A command byte is "constructed, transmitted, discarded"
(R80): its meaning is that the block makes it from the parameters and its fields and transmits it by WRITE_BYTE. What the
byte does in the receiver is the observer's reading (Machine/Observe.lean, R67; log 9). -/

namespace Sys2Proof.Machine

/-- Transmit one byte by WRITE_BYTE (R133). -/
def transmit (x : Byte) (s : State) : State := perform (byteSteps x) s

/-- CMD set-data-mode, fixed address, write (R81). -/
def execCmdSetDataMode (s : State) : Host.Outcome State Fault Refusal := .next (transmit (dataCommand s.params) s)

/-- CMD set-address (R82). -/
def execCmdSetAddress (pp : BitVec 2) (s : State) : Host.Outcome State Fault Refusal :=
  .next (transmit (addressCommand s.params (pp.setWidth 8)) s)

/-- CMD set-display (R83). -/
def execCmdSetDisplay (on : Bool) (bri : BitVec 3) (s : State) : Host.Outcome State Fault Refusal :=
  .next (transmit (displayCommand s.params (configByte s.params on (bri.setWidth 8))) s)

/-- DATA segment pattern, sent unchanged (R88). -/
def execDataPattern (x : Byte) (s : State) : Host.Outcome State Fault Refusal := .next (transmit x s)

end Sys2Proof.Machine
end

