-- ==== Sys2Proof/Machine/Dispatch.lean ====
section
/-! DEFINITION. One arm per constructor of Instr, each a direct call of its meaning. -/

namespace Sys2Proof.Machine

def exec (i : Instr) (s : State) : Host.Outcome State Fault Refusal :=
  match i with
  -- requests (R95)
  | .init enabled brightness size => Sys2Proof.Machine.execInit enabled brightness size s
  | .setEnabled flag => Sys2Proof.Machine.execSetEnabled flag s
  | .setBrightness level => Sys2Proof.Machine.execSetBrightness level s
  | .displaySegments position pattern => Sys2Proof.Machine.execDisplaySegments position pattern s
  | .displayDigit position digit => Sys2Proof.Machine.execDisplayDigit position digit s
  | .displayColon flag => Sys2Proof.Machine.execDisplayColon flag s
  | .displayNumber value leadingZero dot => Sys2Proof.Machine.execDisplayNumber value leadingZero dot s
  | .clear => Sys2Proof.Machine.execClear s
  | .reserved low => Sys2Proof.Machine.execReserved low s
  -- micro-operations (R97)
  | .setOut line => Sys2Proof.Machine.execSetOut line s
  | .setIn line => Sys2Proof.Machine.execSetIn line s
  | .driveHigh line => Sys2Proof.Machine.execDriveHigh line s
  | .driveLow line => Sys2Proof.Machine.execDriveLow line s
  | .read line => Sys2Proof.Machine.execRead line s
  | .wait => Sys2Proof.Machine.execWait s
  | .start => Sys2Proof.Machine.execStart s
  | .writeByte x => Sys2Proof.Machine.execWriteByte x s
  | .stop => Sys2Proof.Machine.execStop s
  | .send bytes => Sys2Proof.Machine.execSend bytes s
  | .sendConfig => Sys2Proof.Machine.execSendConfig s
  -- wire bytes (R80 to R88)
  | .cmdSetDataMode => Sys2Proof.Machine.execCmdSetDataMode s
  | .cmdSetAddress pp => Sys2Proof.Machine.execCmdSetAddress pp s
  | .cmdSetDisplay on bri => Sys2Proof.Machine.execCmdSetDisplay on bri s
  | .dataPattern x => Sys2Proof.Machine.execDataPattern x s

end Sys2Proof.Machine
end

