-- ==== Sys2Proof/Machine/Step.lean ====
section
/-! DEFINITION. One step of the instance, and the placing of a table word where the next step takes it. -/

namespace Sys2Proof.Machine

/-- One step: an operation in progress runs to completion (R70); else the next pending request is decoded and run (R25,
R96, R269); with none pending the block is idle (R245, log 8). -/
def step (s : State) : Host.Outcome State Fault Refusal :=
  match s.seq with
  | .busy _ _ => .next (finish s)
  | .idle =>
    match fetch s with
    | none => .next s
    | some (r, s') =>
      match decodeRequest s.params r with
      | .instr i => exec i s'
      | .rejected why => .refused (.malformedRequest why)

/-- The state in which the very next step runs the instruction of a table word: a request stands at the head of those
pending; a wire byte, which no host may request (R97), stands as the sequence in progress. A word that decodes to
nothing is placed as a tuple the decoder rejects (log 8). -/
def State.withFetchWord (s : State) (_nbits w : Nat) : State :=
  match tableEncoding w with
  | some (.request r) => placeRequest r s
  | some (.wire b) =>
    match decodeWire s.params false b with
    | .instr i => placeInternal i (byteSteps b) s
    | .rejected _ => placeRequest ⟨0x0, []⟩ s
  | none => placeRequest ⟨0x0, []⟩ s

end Sys2Proof.Machine
end

