-- ==== Sys2Proof/Machine/Instances.lean ====
section
/-! DEFINITION. Several instances, one per display (R36, R243): each has its own state, and a step is a step of one of
them. Which one moves next is the host's choice (R64, R269). -/

namespace Sys2Proof.Machine

/-- The displays of a host, each an instance of its own (R36). An instance has no identifier beyond its place. -/
abbrev Instances := List State

/-- The host creates an instance (R246): a new one, with a stream of free values that no other has (log 2). -/
def createInstance (ss : Instances) : Instances := ss ++ [{ State.reset with stream := ss.length }]

/-- A step of instance `n`; with no such instance nothing happens. -/
def stepInstance (n : Nat) (ss : Instances) : Host.Outcome Instances Fault Refusal :=
  match ss[n]? with
  | none => .next ss
  | some s =>
    match step s with
    | .next t => .next (ss.set n t)
    | .fault r => .fault r
    | .refused r => .refused r

/-- A request presented to instance `n` (R246). -/
def presentInstance (n : Nat) (r : Request) (ss : Instances) : Instances := ss.modify n (present r)

end Sys2Proof.Machine
end

