-- ==== Sys2Proof/Machine/Observe.lean ====
section
/-! DEFINITION. What can be read from a trace: the levels on the wire (R51, R52), the wire observer that decodes a trace
into start conditions, bytes, acknowledgments and stop conditions (R66), the display shadow (R67), and the counts and
lower time bounds of R135, R141 and R271. The observer and the shadow are readings of the trace, not state of the block
(D27); nothing here is used by `exec` or `step`.

DESIGN CHOICE (log 11): the spec leaves open which condition a change from or to an ANY level makes (R66; R264 and item 16
of 93 for INIT's line set-up), and asks an observer to admit every value there (D6). So the observer takes an argument
`g`, one free value for each line after each event: an ANY level takes that value. A statement about the observer holds
for every `g`. -/

namespace Sys2Proof.Machine

/-! ### Levels -/

/-- A level on a wire. `any`: the spec admits any value there (R51, R52). -/
inductive Level where
  | low
  | high
  | any
  deriving DecidableEq, Repr

/-- The level of a driven bit. -/
def Level.ofBit (b : Bool) : Level := if b then .high else .low

/-- The level as the observer sees it: an ANY level takes the free value given (D6, log 11). -/
def Level.resolve (free : Bool) : Level → Bool
  | .low => false
  | .high => true
  | .any => free

/-- What the observer knows of a line: nothing until an event writes it. -/
structure Seen where
  dir : Option Dir
  latch : Option Bool
  deriving DecidableEq, Repr

/-- A line whose two bits are known. -/
def Seen.ofLine (x : Line) : Seen := ⟨some x.dir, some x.latch⟩

/-- The level on CLK: the latch while it is an output, any value otherwise (R51). -/
def clkLevel (x : Seen) : Level :=
  match x.dir, x.latch with
  | some .output, some b => Level.ofBit b
  | some .output, none => .any
  | some .input, _ => .any
  | none, _ => .any

/-- The level on DIO, by direction, latch, and whether the slave pulls (R52). -/
def dioLevel (x : Seen) (pull : Bool) : Level :=
  match x.dir, x.latch, pull with
  | some .output, some b, false => Level.ofBit b
  | some .output, some false, true => .low
  | some .output, some true, true => .any
  | some .output, none, _ => .any
  | some .input, _, true => .low
  | some .input, some true, false => .high
  | some .input, some false, false => .any
  | some .input, none, false => .any
  | none, _, _ => .any

/-! ### The observer -/

/-- A byte as the observer decodes it: its value, and the sample taken just before its ninth clock (R66). -/
structure SeenByte where
  value : Byte
  ack : Option Bool
  deriving DecidableEq, Repr

/-- The free values of the observer (D6, log 11): the value an ANY level of the line takes after the n-th event. -/
abbrev Free := Nat → LineName → Bool

/-- The observer's state while it replays a trace (R66). -/
structure Obs where
  clk : Seen
  dio : Seen
  /-- The levels after the last event. -/
  clkLevel : Bool
  dioLevel : Bool
  /-- A start condition was seen, and no stop condition since. -/
  framed : Bool
  /-- The levels at the data clocks of the present group of nine, oldest first. -/
  bits : List Bool
  /-- The last sample. -/
  sampled : Option Bool
  /-- The bytes since the last start condition, oldest first. -/
  bytes : List SeenByte
  /-- The transactions closed by a stop condition, oldest first. -/
  closed : List (List SeenByte)
  /-- How many start conditions and stop conditions were seen. -/
  starts : Nat
  stops : Nat
  /-- How many events were seen: the index of the next free values. -/
  events : Nat
  deriving DecidableEq, Repr

/-- Before any event nothing is known of the lines (R35, R51): both levels are ANY. -/
def Obs.initial (g : Free) : Obs :=
  { clk := ⟨none, none⟩, dio := ⟨none, none⟩, clkLevel := g 0 .clk, dioLevel := g 0 .dio, framed := false, bits := [],
    sampled := none, bytes := [], closed := [], starts := 0, stops := 0, events := 0 }

/-- Bits assembled least significant first (R58, R66). -/
def assemble : List Bool → Nat
  | [] => 0
  | b :: bs => b.toNat + 2 * assemble bs

/-- What an event tells of the lines, and of the slave's pull at that event: equal to the draw at a sample and absent at
every other event (R66). -/
def Obs.lines (o : Obs) : Event → Seen × Seen × Bool
  | .setDir .clk d => ({ o.clk with dir := some d }, o.dio, false)
  | .setDir .dio d => (o.clk, { o.dio with dir := some d }, false)
  | .drive .clk b => ({ o.clk with latch := some b }, o.dio, false)
  | .drive .dio b => (o.clk, { o.dio with latch := some b }, false)
  | .wait => (o.clk, o.dio, false)
  | .sample .clk _ => (o.clk, o.dio, false)
  | .sample .dio a => (o.clk, o.dio, !a)

/-- One clock: data at clocks 1 to 8 of a group of nine, the acknowledgment slot at the ninth (R66). -/
def Obs.clock (o : Obs) (level : Bool) : Obs :=
  if o.bits.length < 8 then { o with bits := o.bits ++ [level] }
  else { o with bits := [], bytes := o.bytes ++ [⟨BitVec.ofNat 8 (assemble o.bits), o.sampled⟩] }

/-- The conditions and clocks that a change of levels makes (R66): DIO falling while CLK stays high is a start
condition, DIO rising while CLK stays high a stop condition, and after a start condition CLK rising is a clock. An ANY
level comes here with its free value, so a change from or to one makes a condition or a clock exactly where that value
says so (DESIGN CHOICE, log 11). -/
def Obs.edge (o : Obs) (clk dio : Bool) : Obs :=
  if o.clkLevel && clk && o.dioLevel && !dio then
    { o with framed := true, bits := [], bytes := [], starts := o.starts + 1 }
  else if o.clkLevel && clk && !o.dioLevel && dio then
    { o with
      framed := false, bits := [], bytes := [], stops := o.stops + 1,
      closed := if o.framed then o.closed ++ [o.bytes] else o.closed }
  else if !o.clkLevel && clk && o.framed then o.clock dio
  else o

/-- The observer takes one event. -/
def Obs.event (g : Free) (o : Obs) (e : Event) : Obs :=
  let (clk, dio, pull) := o.lines e
  let c := (Machine.clkLevel clk).resolve (g (o.events + 1) .clk)
  let d := (Machine.dioLevel dio pull).resolve (g (o.events + 1) .dio)
  let o := { o with sampled := match e with | .sample _ a => some a | _ => o.sampled }
  { o.edge c d with clk := clk, dio := dio, clkLevel := c, dioLevel := d, events := o.events + 1 }

/-- The observer takes the events of a trace in order. -/
def Obs.replay (g : Free) : Obs → List Event → Obs
  | o, [] => o
  | o, e :: es => (o.event g e).replay g es

/-- The observer's reading of a whole trace (R66). -/
def observe (g : Free) (trace : List Event) : Obs := (Obs.initial g).replay g trace

/-! ### The display shadow -/

/-- The display shadow (R67): `none` is unknown. -/
structure Shadow where
  shown : Vector (Option Byte) 4
  disp : Option Byte
  mode : Option Byte
  deriving DecidableEq, Repr

/-- Nothing is known of the display at first (R67, R263). -/
def Shadow.initial : Shadow := ⟨#v[none, none, none, none], none, none⟩

/-- What one decoded transaction does to the shadow (R67): the data command sets MODE, a display-control command DISP,
an address and a pattern SHOWN, in fixed-address mode. -/
def Shadow.transaction (p : Params) (w : Shadow) (t : List SeenByte) : Shadow :=
  match t.map (·.value) with
  | [b] =>
    match decodeWire p false b with
    | .instr .cmdSetDataMode => { w with mode := some b }
    | .instr (.cmdSetDisplay _ _) => { w with disp := some (b &&& 0x0F) }
    | _ => w
  | [a, x] =>
    match decodeWire p false a with
    | .instr (.cmdSetAddress pp) =>
      if w.mode = some (dataCommand p) then { w with shown := w.shown.setIfInBounds pp.toNat (some x) } else w
    | _ => w
  | _ => w

/-- The shadow after transactions in order. -/
def Shadow.after (p : Params) : Shadow → List (List SeenByte) → Shadow
  | w, [] => w
  | w, t :: ts => (w.transaction p t).after p ts

/-- The shadow of a trace (R67), under the observer's free values. -/
def shadow (p : Params) (g : Free) (trace : List Event) : Shadow := Shadow.initial.after p (observe g trace).closed

/-! ### Counts and lower bounds of time -/

/-- The events of a trace that satisfy a test. -/
def countEvents (f : Event → Bool) (trace : List Event) : Nat := (trace.filter f).length

/-- Waits (R135, R141). -/
def waits (trace : List Event) : Nat := countEvents (fun e => e == .wait) trace

/-- Drive(CLK,1) events (R141). -/
def clockDrives (trace : List Event) : Nat := countEvents (fun e => e == .drive .clk true) trace

/-- Sample events (R141). -/
def samplesTaken (trace : List Event) : Nat :=
  countEvents (fun e => match e with | .sample _ _ => true | _ => false) trace

/-- SetDir events (R135). -/
def dirWrites (trace : List Event) : Nat :=
  countEvents (fun e => match e with | .setDir _ _ => true | _ => false) trace

/-- Rising edges of CLK in a trace that begins with the given CLK latch, CLK an output throughout (R135, R141). -/
def clockRises : Bool → List Event → Nat
  | _, [] => 0
  | c, .drive .clk b :: es => (if c = false ∧ b = true then 1 else 0) + clockRises b es
  | c, _ :: es => clockRises c es

/-- The least time a trace takes, in microseconds, counting Waits only (R266, R271). There is no upper bound (R270). -/
def minMicros (trace : List Event) : Nat := waits trace * Config.delayUs

end Sys2Proof.Machine
end

