-- ==== Sys2Proof/Safety.lean ====
section
/-! DEFINITION. The terms the claims use: the event lists the spec writes out for START, WRITE_BYTE, STOP and whole
transactions (R131, R133, R137, R140), the draws an operation consumes (R55), the patterns of a rendered number in closed
form (R200), and the invariant that every step keeps. The event lists here are written from the spec's own listings, apart
from the machine's sequences. -/

namespace Sys2Proof.Machine

/-! ### Event lists as the spec lists them -/

/-- The trace of START (R131). -/
def startEvents : List Event := [.drive .dio true, .drive .clk true, .wait, .drive .dio false]

/-- The trace of one data bit (R133, L1-9): the level settles while CLK is low. -/
def bitEvents (b : Bool) : List Event :=
  [.drive .clk false, .wait, .drive .dio b, .drive .clk true, .wait]

/-- The trace of the data phase: bit 0 first, bit 7 last (R58, R133). -/
def dataEvents (x : Byte) : List Event :=
  bitEvents (x.getLsbD 0) ++ bitEvents (x.getLsbD 1) ++ bitEvents (x.getLsbD 2) ++ bitEvents (x.getLsbD 3) ++
  bitEvents (x.getLsbD 4) ++ bitEvents (x.getLsbD 5) ++ bitEvents (x.getLsbD 6) ++ bitEvents (x.getLsbD 7)

/-- The two events of the acknowledged path (R133, D7); absent when the sampled level is 1. -/
def ackPathEvents (a : Bool) : List Event :=
  if a then [] else [.setDir .dio .output, .drive .dio false]

/-- The trace of the acknowledgment phase when the sampled level is `a` (R133). -/
def ackEvents (a : Bool) : List Event :=
  [.drive .clk false, .setDir .dio .input, .drive .dio true, .wait, .sample .dio a] ++ ackPathEvents a ++
  [.wait, .drive .clk true, .wait, .drive .clk false, .wait, .setDir .dio .output]

/-- The trace of WRITE_BYTE x when the sampled level is `a` (R133). -/
def byteEvents (x : Byte) (a : Bool) : List Event := dataEvents x ++ ackEvents a

/-- The trace of STOP (R137). -/
def stopEvents : List Event :=
  [.drive .clk false, .wait, .drive .dio false, .wait, .drive .clk true, .wait, .drive .dio true]

/-- The bytes of a transaction, each with the level sampled at its end. -/
def payloadEvents : List Byte → List Bool → List Event
  | [], _ => []
  | _ :: _, [] => []
  | x :: xs, a :: as => byteEvents x a ++ payloadEvents xs as

/-- The trace of SEND (R60, R140). -/
def frameEvents (bytes : List Byte) (acks : List Bool) : List Event :=
  startEvents ++ payloadEvents bytes acks ++ stopEvents

/-- The trace of transactions one after the other, the acks consumed in order (R55). -/
def framesEvents : List (List Byte) → List Bool → List Event
  | [], _ => []
  | t :: ts, acks => frameEvents t (acks.take t.length) ++ framesEvents ts (acks.drop t.length)

/-- How many bytes some transactions have. -/
def byteCount (ts : List (List Byte)) : Nat := (ts.map List.length).sum

/-- The trace of INIT's line set-up (R163). -/
def setupEvents : List Event :=
  [.setDir .clk .output, .setDir .dio .output, .drive .clk false, .drive .dio false]

/-- The two transactions of `SEGS(position, pattern)` (R94, R166). -/
def segs (p : Params) (position pattern : Byte) : List (List Byte) :=
  [[dataCommand p], [addressCommand p position, pattern]]

/-- `SEGS(i, f i)` for i in 0..n-1, ascending (R200, R210). -/
def segsUpTo (p : Params) (n : Nat) (f : Nat → Byte) : List (List Byte) :=
  (List.range n).flatMap fun i => segs p (BitVec.ofNat 8 i) (f i)

/-! ### Draws and the sequencer -/

/-- The state once `n` more samples have been taken, as far as the environment goes (R55). -/
def consumeDraws : Nat → State → State
  | 0, s => s
  | n + 1, s => consumeDraws n s.consumeDraw

/-- The levels the environment gives at the coming `n` samples, in order (R55). -/
def draws : Nat → State → List Bool
  | 0, _ => []
  | n + 1, s => draw s :: draws n s.consumeDraw

/-- SEQ after `n` more events (R25). -/
def Seq.plus (q : Seq) (n : Nat) : Seq :=
  match q with
  | .idle => .idle
  | .busy op k => .busy op (k + n)

/-- The results after an operation that sampled `acks` (R161). -/
def yields (s : State) (acks : List Bool) : List (List Bool) :=
  if s.params.ackExpose then s.results ++ [acks] else s.results

/-- The idle bus: both lines outputs, both high (R137). -/
def idleLine : Line := ⟨.output, true⟩

/-- DIO is driven or turned only while CLK is low (R66, R265); `clk` is CLK's latch before the events. -/
def dioOnlyWhileClockLow : Bool → List Event → Bool
  | _, [] => true
  | _, .drive .clk b :: es => dioOnlyWhileClockLow b es
  | clk, .drive .dio _ :: es => !clk && dioOnlyWhileClockLow clk es
  | clk, .setDir .dio _ :: es => !clk && dioOnlyWhileClockLow clk es
  | clk, .setDir .clk _ :: es => dioOnlyWhileClockLow clk es
  | clk, .wait :: es => dioOnlyWhileClockLow clk es
  | clk, .sample _ _ :: es => dioOnlyWhileClockLow clk es

/-- The state `s` once the transactions `ts` have been sent, as far as the spec fixes it (R137, R140): their frames in the
trace, one draw a byte, the idle bus, ACK the last level sampled. SR and BITCNT are undefined afterwards (R29): they, and
the index of the model's free values, are those of `t`. Everything else is as in `s`. -/
def transmitted (ts : List (List Byte)) (s t : State) : State :=
  { s with
    clk := ⟨s.clk.dir, true⟩, dio := idleLine,
    ack := (draws (byteCount ts) s).getLast?.getD s.ack,
    trace := s.trace ++ framesEvents ts (draws (byteCount ts) s),
    ret := draws (byteCount ts) s,
    slave := s.slave.drop (byteCount ts), samples := s.samples + byteCount ts,
    sr := t.sr, bitcnt := t.bitcnt, undefs := t.undefs }

/-- `s` with a refusal recorded and nothing else changed (R232). -/
def refusedAs (why : RefuseReason) (s : State) : State := { s with refusals := s.refusals ++ [why] }

/-- The state `s` once WRITE_BYTE has sent `x`, as far as the spec fixes it (R133, R134). SR, BITCNT and the index of the
model's free values are those of `t` (R29). -/
def wrote (x : Byte) (s t : State) : State :=
  { s with
    clk := ⟨s.clk.dir, false⟩, dio := ⟨.output, draw s⟩, ack := draw s,
    trace := s.trace ++ byteEvents x (draw s), seq := s.seq.plus (byteEvents x (draw s)).length,
    ret := [draw s], slave := s.slave.tail, samples := s.samples + 1,
    sr := t.sr, bitcnt := t.bitcnt, undefs := t.undefs }

/-! ### A rendered number in closed form -/

/-- What position `i` of `n` shows before the decimal point (R200): the minus sign at position 0 of a negative number;
else the digit of weight 10^(n-1-i), blank where what is left of the magnitude is 0 and leading zeros are off. -/
def digitPattern (p : Params) (n : Nat) (value : Int) (leadingZero : Bool) (i : Nat) : Byte :=
  if value < 0 ∧ i = 0 then p.minus
  else if value.natAbs / 10 ^ (n - 1 - i) = 0 ∧ leadingZero = false then Config.blank
  else segOf p (value.natAbs / 10 ^ (n - 1 - i) % 10)

/-- What position `i` of `n` shows (R200): without leading zeros, zero is a lone digit 0 with no decimal point (C8). -/
def numberPattern (p : Params) (n : Nat) (value : Int) (leadingZero : Bool) (dot : Nat) (i : Nat) : Byte :=
  if value = 0 ∧ leadingZero = false then (if i + 1 = n then segOf p 0 else Config.blank)
  else if i = dot ∧ dot ≠ 0 then setDot (digitPattern p n value leadingZero i)
  else digitPattern p n value leadingZero i

/-! ### The invariant -/

/-- The observer sees the idle bus and no frame open. -/
def Obs.busIdle (o : Obs) : Prop :=
  o.clk = Seen.ofLine idleLine ∧ o.dio = Seen.ofLine idleLine ∧ o.clkLevel = true ∧ o.dioLevel = true ∧
  o.framed = false ∧ o.bits = [] ∧ o.bytes = []

/-- Since `o` the observer saw whole transactions and nothing else: as many start and stop conditions as transactions
closed (R60, R66). What it saw up to `o` is left open. -/
def Obs.onlyTransactions (o o' : Obs) : Prop :=
  ∃ ts : List (List SeenByte),
    o'.closed = o.closed ++ ts ∧ o'.starts = o.starts + ts.length ∧ o'.stops = o.stops + ts.length

/-- The trace of an initialized instance: INIT's line set-up and then, whatever the observer saw in the set-up (R264: any
value; the free values `g`, log 11), whole transactions only, the bus idle at the end. -/
def framedTrace (trace : List Event) : Prop :=
  ∃ rest, trace = setupEvents ++ rest ∧
    ∀ g : Free, (observe g trace).busIdle ∧ (observe g setupEvents).onlyTransactions (observe g trace)

/-- What holds of an instance between operations: SEQ is IDLE (R25); before INIT nothing was performed (R96); after it
the bus is idle (R137), SIZE is in 1..4 (R23), CONFIG's bits 7:4 are 0 (R24; where DISPLAY_ON's are), and after INIT's
line set-up, of which nothing is claimed (R264), the observer of the trace sees whole transactions only (R60, R66). -/
def Invariant (s : State) : Prop :=
  s.seq = .idle ∧ s.todo = [] ∧ s.params.displayOn &&& 0xF0 = 0 ∧
  (s.initDone = false → s.trace = [] ∧ s.results = []) ∧
  (s.initDone = true →
    s.clk = idleLine ∧ s.dio = idleLine ∧ 1 ≤ s.size ∧ s.size ≤ 4 ∧ s.config &&& 0xF0 = 0 ∧ framedTrace s.trace)

/-- The transactions the block can send (R90), with the commands of the parameters: the data command alone, an address
command of a masked position with one pattern, a display-control command alone. -/
def Sendable (p : Params) (t : List Byte) : Prop :=
  t = [dataCommand p] ∨ (∃ position pattern, t = [addressCommand p position, pattern]) ∨
  ∃ on level, t = [displayCommand p (cfg p on level)]

/-- The instance has sent nothing before INIT, and since then INIT's line set-up and whole transactions that it can send,
no byte outside one (R60, R90, R91, R212). -/
def SentOnlyKnown (s : State) : Prop :=
  s.seq = .idle ∧
  (s.initDone = false → s.trace = []) ∧
  (s.initDone = true → ∃ ts acks,
    s.trace = setupEvents ++ framesEvents ts acks ∧ acks.length = byteCount ts ∧ ∀ t ∈ ts, Sendable s.params t)

end Sys2Proof.Machine
end

