-- ==== Sys2Proof/Certificates/Slice0/Obligations.lean ====
section
/-! DEFINITION. The statements for the provers. Each docstring cites what of spec/ it formalises. A state `t` that
stands on both sides of an equation (`t = { … with sr := t.sr }`) leaves that field of `t` open: it is one of the
registers the spec calls undefined there. -/

open Sys2Proof Sys2Proof.Machine

/-! ### Line micro-operations (40_line.md) -/

/-- 40_line.md, SET_OUT: it writes the direction and appends its event; nothing else changes. The line then drives its
latch; where the slave pulls DIO low and the latch is 1, the two contend, and the level is any value by the spec's own
reading (decision D6, log 11). A line already an output is unchanged. -/
def Obligations.SetOutWritesDirection : Prop :=
  ∀ (l : LineName) (s : State),
    exec (.setOut l) s = .next
      { s.setLine l ⟨.output, (s.line l).latch⟩ with
        trace := s.trace ++ [.setDir l .output], seq := s.seq.plus 1, ret := [] } ∧
    clkLevel (Seen.ofLine ⟨.output, (s.line l).latch⟩) = Level.ofBit (s.line l).latch ∧
    dioLevel (Seen.ofLine ⟨.output, (s.line l).latch⟩) false = Level.ofBit (s.line l).latch ∧
    ((s.line l).latch = true → dioLevel (Seen.ofLine ⟨.output, (s.line l).latch⟩) true = .any) ∧
    ((s.line l).dir = .output → s.setLine l ⟨.output, (s.line l).latch⟩ = s)

/-- 40_line.md, SET_IN: it writes the direction and appends its event; the latch keeps its value. CLK as an input has
any level (R51). With latch 1 DIO is pulled up, with latch 0 it floats unless the slave pulls it (R52, decision D6). -/
def Obligations.SetInWritesDirection : Prop :=
  ∀ (l : LineName) (s : State),
    exec (.setIn l) s = .next
      { s.setLine l ⟨.input, (s.line l).latch⟩ with
        trace := s.trace ++ [.setDir l .input], seq := s.seq.plus 1, ret := [] } ∧
    clkLevel (Seen.ofLine ⟨.input, (s.line l).latch⟩) = .any ∧
    dioLevel (Seen.ofLine ⟨.input, (s.line l).latch⟩) true = .low ∧
    dioLevel (Seen.ofLine ⟨.input, (s.line l).latch⟩) false = (if (s.line l).latch then .high else .any)

/-- R113: DRIVE_HIGH writes the latch whatever the direction is and appends its event; nothing else changes. On an input
DIO the pull-up is on, and on an output CLK that was low the level rises. A latch already 1 is unchanged. -/
def Obligations.DriveHighWritesLatch : Prop :=
  ∀ (l : LineName) (s : State),
    exec (.driveHigh l) s = .next
      { s.setLine l ⟨(s.line l).dir, true⟩ with
        trace := s.trace ++ [.drive l true], seq := s.seq.plus 1, ret := [] } ∧
    dioLevel (Seen.ofLine ⟨.input, true⟩) false = .high ∧
    (s.clk = ⟨.output, false⟩ →
      clkLevel (Seen.ofLine s.clk) = .low ∧ clkLevel (Seen.ofLine ⟨s.clk.dir, true⟩) = .high) ∧
    ((s.line l).latch = true → s.setLine l ⟨(s.line l).dir, true⟩ = s)

/-- 40_line.md, DRIVE_LOW: it writes the latch whatever the direction is and appends its event; nothing else changes. An
input DIO then floats unless the slave pulls it, any level by the spec's own reading (decision D6, log 11). From both
lines outputs and high, DRIVE_LOW DIO is a start condition: DIO falls while CLK stays high, as the observer of R66 reads
it (decision D27, log 11). A latch already 0 is unchanged. -/
def Obligations.DriveLowWritesLatch : Prop :=
  ∀ (l : LineName) (s : State),
    exec (.driveLow l) s = .next
      { s.setLine l ⟨(s.line l).dir, false⟩ with
        trace := s.trace ++ [.drive l false], seq := s.seq.plus 1, ret := [] } ∧
    dioLevel (Seen.ofLine ⟨.input, false⟩) false = .any ∧ dioLevel (Seen.ofLine ⟨.input, false⟩) true = .low ∧
    (∀ (g : Free) (o : Obs), o.clk = Seen.ofLine ⟨.output, true⟩ → o.dio = Seen.ofLine ⟨.output, true⟩ →
      o.clkLevel = true → o.dioLevel = true → (o.event g (.drive .dio false)).starts = o.starts + 1) ∧
    ((s.line l).latch = false → s.setLine l ⟨(s.line l).dir, false⟩ = s)

/-- R56: a sample changes neither direction nor latch of any line; it returns one bit, and its only effect on the block's
state is the write of ACK by the WRITE_BYTE that issues it. (The draw is consumed from the environment.) -/
def Obligations.SampleHasNoSideEffect : Prop :=
  (∀ (l : LineName) (s : State),
    exec (.read l) s = .next
      { s with
        trace := s.trace ++ [.sample l (draw s)], seq := s.seq.plus 1, ret := [draw s],
        slave := s.slave.tail, samples := s.samples + 1 }) ∧
  ∀ (x : Byte) (s : State), ∃ t, exec (.writeByte x) s = .next t ∧ t.ack = draw s

/-- 40_line.md, WAIT: no change of state; the trace grows by one Wait. -/
def Obligations.WaitAppendsOneEvent : Prop :=
  ∀ s : State, exec .wait s = .next { s with trace := s.trace ++ [.wait], seq := s.seq.plus 1, ret := [] }

/-! ### Framing and the serializer (41_framing.md) -/

/-- R131: START drives DIO high, CLK high, waits one unit, drives DIO low: four events, one of them a Wait. From two
outputs it leaves CLK at {OUT, 1} and DIO at {OUT, 0}. Nothing else changes. -/
def Obligations.StartSequence : Prop :=
  ∀ s : State, ∃ t, exec .start s = .next t ∧
    t = { s with
      clk := ⟨s.clk.dir, true⟩, dio := ⟨s.dio.dir, false⟩,
      trace := s.trace ++ [.drive .dio true, .drive .clk true, .wait, .drive .dio false],
      seq := s.seq.plus 4, ret := [] } ∧
    (s.clk.dir = .output → s.dio.dir = .output → t.clk = ⟨.output, true⟩ ∧ t.dio = ⟨.output, false⟩) ∧
    t.trace.length = s.trace.length + 4 ∧ waits t.trace = waits s.trace + 1

/-- 41_framing.md section 2, WRITE_BYTE, with its post-state: the trace of the eight data bits, bit 0 first, and of the
acknowledgment slot with the level drawn; CLK low, DIO an output at the level drawn, ACK that level; the wire level of DIO
equals it. SR and BITCNT are undefined afterwards; nothing else changes. The order of the two events of the acknowledged
path is the spec's own choice (decision D7, log 12). -/
def Obligations.WriteByteSendsBitsAndSamplesAck : Prop :=
  ∀ (x : Byte) (s : State), ∃ t, exec (.writeByte x) s = .next t ∧ t = wrote x s t ∧
    (s.clk.dir = .output → t.clk = ⟨.output, false⟩) ∧ t.dio = ⟨.output, t.ack⟩ ∧
    dioLevel (Seen.ofLine t.dio) false = Level.ofBit t.ack

/-- 41_framing.md section 2, the counts of WRITE_BYTE (derived there): 51 events and two more if acknowledged, 20 Waits
(at least 100 us), nine rising edges of CLK, one sample, two direction writes or three, for every byte. -/
def Obligations.WriteByteCounts : Prop :=
  ∀ (x : Byte) (s : State), ∃ t es, exec (.writeByte x) s = .next t ∧ t.trace = s.trace ++ es ∧
    es.length = 51 + (if t.ack then 0 else 2) ∧ waits es = 20 ∧ minMicros es = 100 ∧
    clockRises s.clk.latch es = 9 ∧ samplesTaken es = 1 ∧ dirWrites es = (if t.ack then 2 else 3)

/-- 41_framing.md section 2 and 70_reset_and_hazards.md section 3 (derived there): during WRITE_BYTE DIO is driven or
turned only while CLK is low, and data bit i is driven after a falling clock and a Wait and right before the rising edge
of data clock i + 1. -/
def Obligations.DataSettlesWhileClockIsLow : Prop :=
  ∀ (x : Byte) (s : State), ∃ t es, exec (.writeByte x) s = .next t ∧ t.trace = s.trace ++ es ∧
    dioOnlyWhileClockLow s.clk.latch es = true ∧
    ∀ i : Nat, i < 8 →
      (es.drop (5 * i)).take 5 =
        [.drive .clk false, .wait, .drive .dio (x.getLsbD i), .drive .clk true, .wait]

/-- 20_memory.md section 2 (derived there): WRITE_BYTE samples once, with DIO an input with latch 1, so the level it
samples is 0 exactly if the slave pulls; that level is its ACK. -/
def Obligations.SampleSeesReleasedLine : Prop :=
  ∀ (x : Byte) (s : State), ∃ pre post,
    byteSteps x = pre ++ .sampleAck :: post ∧ Micro.sampleAck ∉ pre ∧ Micro.sampleAck ∉ post ∧
    (run pre s).dio = ⟨.input, true⟩ ∧
    (∀ pull, dioLevel (Seen.ofLine (run pre s).dio) pull = Level.ofBit (!pull)) ∧
    ∃ t, exec (.writeByte x) s = .next t ∧ t = perform (pre ++ .sampleAck :: post) s ∧ t.ack = draw (run pre s)

/-- R137: STOP's seven events, three of them Waits; from two outputs it leaves the bus idle, both lines high. Nothing else
changes. -/
def Obligations.StopLeavesBusIdle : Prop :=
  ∀ s : State, ∃ t, exec .stop s = .next t ∧
    t = { s with
      clk := ⟨s.clk.dir, true⟩, dio := ⟨s.dio.dir, true⟩,
      trace := s.trace ++
        [.drive .clk false, .wait, .drive .dio false, .wait, .drive .clk true, .wait, .drive .dio true],
      seq := s.seq.plus 7, ret := [] } ∧
    (s.clk.dir = .output → s.dio.dir = .output → t.clk = idleLine ∧ t.dio = idleLine) ∧
    t.trace.length = s.trace.length + 7 ∧ waits t.trace = waits s.trace + 3

/-- R140: SEND is START, one WRITE_BYTE for each byte, STOP; it returns the levels sampled, in order, and ACK ends as the
last of them; the bus is idle afterwards. No level changes the sequence: the frame is that of the same bytes whatever was
drawn. One acknowledged byte makes 64 events. SR and BITCNT are undefined afterwards. -/
def Obligations.SendFramesBytes : Prop :=
  ∀ (bytes : List Byte) (s : State), bytes ≠ [] → s.clk.dir = .output → ∃ t, exec (.send bytes) s = .next t ∧
    t = { transmitted [bytes] s t with seq := s.seq.plus (frameEvents bytes (draws bytes.length s)).length } ∧
    t.trace = s.trace ++ frameEvents bytes t.ret ∧ t.ret = draws bytes.length s ∧ t.ret.length = bytes.length ∧
    some t.ack = t.ret.getLast? ∧ t.clk = idleLine ∧ t.dio = idleLine ∧
    (bytes.length = 1 → t.ret = [false] → t.trace.length = s.trace.length + 64)

/-- 41_framing.md section 4, the counts of SEND (derived there), for any number of bytes: the events, 4 + 20n Waits,
9n + 2 Drive(CLK,1) events, 9n + 1 rising edges from an idle bus and one more where CLK was low, n samples. -/
def Obligations.SendCounts : Prop :=
  ∀ (bytes : List Byte) (s : State), ∃ t es, exec (.send bytes) s = .next t ∧ t.trace = s.trace ++ es ∧
    es.length = 11 + 51 * bytes.length + 2 * (t.ret.count false) ∧
    waits es = 4 + 20 * bytes.length ∧ minMicros es = (4 + 20 * bytes.length) * 5 ∧
    clockDrives es = 9 * bytes.length + 2 ∧ samplesTaken es = bytes.length ∧
    clockRises true es = 9 * bytes.length + 1 ∧ clockRises false es = 9 * bytes.length + 2

/-! ### Command operations (42_commands.md) -/

/-- R162: SEND_CONFIG is one transaction of one byte, CMD_DISPLAY | CONFIG. It reads CONFIG and writes nothing but the
line state and ACK; SR and BITCNT, the serializer's own, are undefined afterwards. -/
def Obligations.SendConfigSendsConfig : Prop :=
  ∀ s : State, ∃ t, exec .sendConfig s = .next t ∧
    t = { transmitted [[s.params.cmdDisplay ||| s.config]] s t with
      seq := s.seq.plus (frameEvents [s.params.cmdDisplay ||| s.config] (draws 1 s)).length }

/-- 42_commands.md, INIT on an instance that is not initialized, with a size in 1..4: the line set-up, CONFIG assembled
and sent, SIZE stored, SEG1 zero, INIT true; the bus idle. The order of the four set-up events and SEG1's zero are the
spec's own choices (decisions D32, D13, log 12). -/
def Obligations.InitConfiguresTheInstance : Prop :=
  ∀ (enabled : Bool) (brightness size : Byte) (s : State),
    s.seq = .idle → s.initDone = false → 1 ≤ size.toNat → size.toNat ≤ 4 →
    ∃ t, exec (.init enabled brightness size) s = .next t ∧
      t = { transmitted [[displayCommand s.params (cfg s.params enabled brightness)]]
              { s with clk := ⟨.output, false⟩, dio := ⟨.output, false⟩, trace := s.trace ++ setupEvents } t with
            config := cfg s.params enabled brightness, size := size.toNat, seg1 := 0x00, initDone := true,
            results := yields s (draws 1 s), todo := [] } ∧
      t.clk = idleLine ∧ t.dio = idleLine

/-- 42_commands.md, SET_ENABLED, the request with SEL 0x1 and one Boolean argument, on an idle instance. Before INIT it
is refused (decision D14), and that a refused request is a next state is the model's reading (log 5). After INIT the
config byte is recomputed with the new flag and the stored brightness and sent, one transaction of one byte, 62 to 64
events, also when nothing changes. The clamp does nothing to a stored brightness. With the ON bit at bit 3 and bits 7:4
zero (R24, general knowledge, decision D19, log 6), only CONFIG.ON is written, and the line state and ACK. -/
def Obligations.SetEnabledPreservesBrightness : Prop :=
  ∀ (flag : Bool) (s : State), s.seq = .idle →
    (∀ a : Int, decodeRequest s.params ⟨0x1, [a]⟩ = .instr (.setEnabled (decide (a ≠ 0)))) ∧
    (s.initDone = false → exec (.setEnabled flag) s = .next (refusedAs .notInitialized s)) ∧
    (s.initDone = true → ∃ t, exec (.setEnabled flag) s = .next t ∧
      t = { transmitted [[displayCommand s.params (cfg s.params flag (s.config &&& 0x07))]] s t with
            config := cfg s.params flag (s.config &&& 0x07), results := yields s (draws 1 s), todo := [] } ∧
      cfg s.params flag (s.config &&& 0x07) = (if flag then s.params.displayOn else 0x00) ||| (s.config &&& 0x07) ∧
      t.trace.length = s.trace.length + (if t.ack then 62 else 64) ∧
      (s.params.displayOn = 0x08 → s.config &&& 0xF0 = 0 →
        t.config &&& 0xF7 = s.config &&& 0xF7 ∧ t.config.getLsbD 3 = flag))

/-- 42_commands.md, SET_BRIGHTNESS, the request with SEL 0x2 and one u8 argument, on an idle instance. Before INIT it is
refused (decision D14), and that a refused request is a next state is the model's reading (log 5). After INIT the
brightness is clamped to [0,7], the config byte recomputed with the stored on/off flag and sent, one transaction of one
byte, 62 to 64 events. Levels 7 and above all store 7. With the ON bit at bit 3 (R24, general knowledge, decision D19,
log 6) CONFIG is (CONFIG & 0x08) | min(level, 7), and only CONFIG.BRI is written, and the line state and ACK. -/
def Obligations.SetBrightnessPreservesEnabled : Prop :=
  ∀ (level : Byte) (s : State), s.seq = .idle →
    decodeRequest s.params ⟨0x2, [(level.toNat : Int)]⟩ = .instr (.setBrightness level) ∧
    (s.initDone = false → exec (.setBrightness level) s = .next (refusedAs .notInitialized s)) ∧
    (s.initDone = true → ∃ t, exec (.setBrightness level) s = .next t ∧
      t = { transmitted [[displayCommand s.params (cfg s.params (s.config.getLsbD 3) level)]] s t with
            config := cfg s.params (s.config.getLsbD 3) level, results := yields s (draws 1 s), todo := [] } ∧
      t.trace.length = s.trace.length + (if t.ack then 62 else 64) ∧
      (s.params.displayOn = 0x08 →
        t.config = (s.config &&& 0x08) ||| BitVec.ofNat 8 (min level.toNat 7) ∧
        (t.config &&& 0x07).toNat = min level.toNat 7 ∧ t.config.getLsbD 3 = s.config.getLsbD 3))

/-- 42_commands.md, DISPLAY_SEGMENTS: the data command in its own transaction, then the address of the masked position
and the pattern unchanged in a second one. SIZE, CONFIG and SEG1 are neither read nor written (decision D11, log 12), and
a position counts modulo 4 only (decision D9). -/
def Obligations.DisplaySegmentsSendsTwoTransactions : Prop :=
  ∀ (position pattern : Byte) (s : State), s.seq = .idle → s.initDone = true →
    ∃ t, exec (.displaySegments position pattern) s = .next t ∧
      t = { transmitted
              [[s.params.cmdData ||| s.params.dataFixedAddr],
               [s.params.cmdAddr ||| BitVec.ofNat 8 (position.toNat % 4), pattern]] s t with
            results := yields s (draws 3 s), todo := [] }

/-! ### Rendering operations (43_rendering.md) -/

/-- 43_rendering.md, DISPLAY_DIGIT: the digit's pattern, blank from 10 on; at a position that is 1 modulo 4 the cached
colon bit is merged and the cache replaced, elsewhere the cache stays; then SEGS. The test on the masked position is the
spec's own choice (decision D10, log 12). Where no digit pattern has bit 7, the cached colon bit never changes. -/
def Obligations.DisplayDigitMergesColon : Prop :=
  ∀ (position digit : Byte) (s : State), s.seq = .idle → s.initDone = true →
    ∃ t, exec (.displayDigit position digit) s = .next t ∧
      (if position.toNat % 4 = 1 then
        t = { transmitted (segs s.params position (segOf s.params digit.toNat ||| (s.seg1 &&& 0x80))) s t with
              seg1 := segOf s.params digit.toNat ||| (s.seg1 &&& 0x80), results := yields s (draws 3 s), todo := [] }
       else
        t = { transmitted (segs s.params position (segOf s.params digit.toNat)) s t with
              results := yields s (draws 3 s), todo := [] }) ∧
      (10 ≤ digit.toNat → segOf s.params digit.toNat = 0x00) ∧
      ((∀ d < 10, (segOf s.params d).getLsbD 7 = false) → t.seg1.getLsbD 7 = s.seg1.getLsbD 7)

/-- 43_rendering.md, DISPLAY_COLON: bit 7 of the cached byte is set or cleared, its other bits kept, and the byte sent to
position 1, also when nothing changes. -/
def Obligations.DisplayColonUpdatesCache : Prop :=
  ∀ (flag : Bool) (s : State), s.seq = .idle → s.initDone = true →
    ∃ t, exec (.displayColon flag) s = .next t ∧
      t = { transmitted (segs s.params 1 t.seg1) s t with
            seg1 := if flag then s.seg1 ||| 0x80 else s.seg1 &&& 0x7F, results := yields s (draws 3 s), todo := [] } ∧
      t.seg1.getLsbD 7 = flag ∧ t.seg1 &&& 0x7F = s.seg1 &&& 0x7F

/-- 43_rendering.md, DISPLAY_NUMBER, for every value but the least of its width, in closed form: position i of SIZE gets
the digit of weight 10^(SIZE-1-i), so that high digits are lost; the minus sign stands at position 0; a digit is blank
where what is left of the magnitude is 0 and leading zeros are off; the decimal point goes to a position 0 < dot < SIZE,
and not to a lone zero (C8, decision D17); the positions are written ascending (decision D18). SEG1 is not written
(decision D11, log 12). BUF, V and NEG are undefined afterwards. -/
def Obligations.DisplayNumberRendersDecimal : Prop :=
  ∀ (value : Int) (leadingZero : Bool) (dot : Byte) (s : State), s.seq = .idle → s.initDone = true →
    1 ≤ s.size → s.size ≤ 4 → value ≠ leastValue s.params →
    ∃ t, exec (.displayNumber value leadingZero dot) s = .next t ∧
      t = { transmitted (segsUpTo s.params s.size (numberPattern s.params s.size value leadingZero dot.toNat)) s t with
            buf := t.buf, v := t.v, neg := t.neg, results := yields s (draws (3 * s.size) s), todo := [] }

/-- 43_rendering.md, CLEAR: a blank pattern to every position from 0 to SIZE-1, ascending, and SEG1 zero, which is the
spec's own choice (decision D12, log 12). -/
def Obligations.ClearBlanksEveryPosition : Prop :=
  ∀ s : State, s.seq = .idle → s.initDone = true → 1 ≤ s.size → s.size ≤ 4 →
    ∃ t, exec .clear s = .next t ∧
      t = { transmitted (segsUpTo s.params s.size fun _ => 0x00) s t with
            seg1 := 0x00, results := yields s (draws (3 * s.size) s), todo := [] }

/-- 43_rendering.md (derived there): at position 1 the colon bit commutes with a digit write. In both orders SEG1 ends
as SEGOF(d) with bit 7, and that is the last pattern transmitted for address 1, for every setting of the parameters. -/
def Obligations.ColonCommutesWithDigit : Prop :=
  ∀ (digit : Byte) (s : State), s.seq = .idle → s.initDone = true →
    ∃ t t' u u' pre pre' acks acks',
      exec (.displayColon true) s = .next t' ∧ exec (.displayDigit 1 digit) t' = .next t ∧
      exec (.displayDigit 1 digit) s = .next u' ∧ exec (.displayColon true) u' = .next u ∧
      t.seg1 = segOf s.params digit.toNat ||| 0x80 ∧ u.seg1 = t.seg1 ∧
      t.trace = pre ++ frameEvents [addressCommand s.params 1, t.seg1] acks ∧ acks.length = 2 ∧
      u.trace = pre' ++ frameEvents [addressCommand s.params 1, t.seg1] acks' ∧ acks'.length = 2

/-! ### Refusals and the sequencer (60_exceptions.md, 10_state.md) -/

/-- 60_exceptions.md section 2: a reserved selector is refused BadSelector, before any other check, initialized or not:
no state of the instance, no event, no result. That refusals are recorded in the run's mark and the run goes on is the
model's reading of that section (log 5). -/
def Obligations.ReservedSelectorIsRefused : Prop :=
  ∀ (low : BitVec 3) (s : State), s.seq = .idle → exec (.reserved low) s = .next (refusedAs .badSelector s)

/-- 60_exceptions.md section 2, the other refusals and their order: every operation but INIT before INIT; a second INIT,
whatever its size; a size outside 1..4; the least value of DISPLAY_NUMBER's width (decisions D14 to D16). A refused
request changes nothing but the mark (log 5). -/
def Obligations.RefusalReasonsInOrder : Prop :=
  ∀ s : State, s.seq = .idle →
    (s.initDone = false →
      (∀ i : Instr, i.isRequest = true → (∀ e b n, i ≠ .init e b n) → (∀ low, i ≠ .reserved low) →
        exec i s = .next (refusedAs .notInitialized s)) ∧
      (∀ e b n, (n.toNat < 1 ∨ 4 < n.toNat) → exec (.init e b n) s = .next (refusedAs .badSize s))) ∧
    (s.initDone = true →
      (∀ e b n, exec (.init e b n) s = .next (refusedAs .reInit s)) ∧
      (∀ lz dot, exec (.displayNumber (leastValue s.params) lz dot) s =
        .next (refusedAs .badValue s)))

/-- 60_exceptions.md sections 1 and 2, 10_state.md: no instruction ends in a fault or a stop of the machine: exec
answers a next state for every instruction in every state. Not every one of them completes the operation: that a refused
request, too, is a next state is the model's reading (log 5). -/
def Obligations.EveryInstructionAnswersANextState : Prop :=
  ∀ (i : Instr) (s : State), ∃ t, exec i s = .next t

/-- 10_state.md, SEQ, and 30_encoding.md section 4: a request presented while an operation is in progress waits until SEQ
is IDLE, which always comes about (decision D22). -/
def Obligations.RequestWaitsForIdle : Prop :=
  ∀ (i : Instr) (s : State), i.isRequest = true → exec i s = exec i (finish s) ∧ (finish s).seq = .idle

/-- A step runs the decoded instruction: with SEQ IDLE, the first pending request leaves the queue and, decoded, is
executed. That the host's requests wait in State.pending, first come first, is the model's choice (log 8). -/
def Obligations.StepRunsTheDecodedRequest : Prop :=
  ∀ (s : State) (r : Request) (rest : List Request) (i : Instr), s.seq = .idle → s.pending = r :: rest →
    decodeRequest s.params r = .instr i → step s = exec i { s with pending := rest }

/-- What a step does where it runs no decoded request: an operation in progress is run to completion; with nothing
pending the block stays idle; a tuple that is no request stops the model by name (log 8). -/
def Obligations.StepOtherwise : Prop :=
  ∀ s : State,
    (∀ op k, s.seq = .busy op k → step s = .next (finish s)) ∧
    (s.seq = .idle → s.pending = [] → step s = .next s) ∧
    (∀ r rest why, s.seq = .idle → s.pending = r :: rest → decodeRequest s.params r = .rejected why →
      step s = .refused (.malformedRequest why))

/-- 92_eei_decisions.md D1 and D22: running an operation event by event, at the sequencer's own pace, is running it as
one uninterrupted sequence: from every BUSY state some number of ticks gives exactly the state that finishing gives, and
before that SEQ is BUSY with the same operation. -/
def Obligations.EventByEventIsWholeOperation : Prop :=
  ∀ (s : State) (op : Instr) (k : Nat), s.seq = .busy op k →
    ∃ n, tick^[n] s = finish s ∧ ∀ m < n, ∃ j, k ≤ j ∧ (tick^[m] s).seq = .busy op j

/-! ### Whole-machine rules -/

/-- 10_state.md section 5 and 70_reset_and_hazards.md section 1: a new instance has INIT false and SEQ IDLE and has
performed nothing; every request but INIT is refused there (decision D14) and leaves it as it is, but for the mark. That
a refused request is a next state, with its reason in the mark, is the model's reading (log 5). -/
def Obligations.ResetAcceptsOnlyInit : Prop :=
  State.reset.initDone = false ∧ State.reset.seq = .idle ∧ State.reset.trace = [] ∧ State.reset.results = [] ∧
  State.reset.refusals = [] ∧
  (∀ i : Instr, i.isRequest = true → (∀ e b n, i ≠ .init e b n) →
    ∃ why, exec i State.reset = .next (refusedAs why State.reset)) ∧
  ∃ t, exec (.init true 0x09 0x04) State.reset = .next t ∧ t.initDone = true ∧ t.refusals = []

/-- The invariant holds of a new instance. -/
def Obligations.ResetMeetsInvariant : Prop := Invariant State.reset

/-- Every step keeps the invariant: between operations SEQ is IDLE; before INIT nothing was performed; after it the bus
is idle, SIZE is in 1..4, CONFIG's bits 7:4 are 0, and the observer of the trace sees the idle bus and, since INIT's
line set-up, not one start or stop condition beyond those of the transactions. Of what it sees in the set-up nothing is
claimed (R264): the statement holds for all free values of the observer (D6, D27, log 11). -/
def Obligations.StepKeepsInvariant : Prop :=
  ∀ s t : State, Invariant s → step s = .next t → Invariant t

/-- 10_state.md section 4 (parameters), 20_memory.md section 3, 60_exceptions.md section 2: a step changes no parameter
and only extends the trace, the results and the refusal mark. It takes at most the first pending request and adds none;
that requests wait in State.pending is the model's choice (log 8). It holds in every state. -/
def Obligations.StepOnlyExtendsTheRecord : Prop :=
  ∀ s t : State, step s = .next t →
    t.params = s.params ∧ s.trace <+: t.trace ∧ s.results <+: t.results ∧ s.refusals <+: t.refusals ∧
    t.pending <:+ s.pending ∧ s.pending.length ≤ t.pending.length + 1

/-- 10_state.md section 2, who writes each register, over all instructions on an instance at IDLE: SIZE and INIT only
INIT; CONFIG only INIT, SET_ENABLED and SET_BRIGHTNESS; SEG1 only INIT, DISPLAY_DIGIT at a position that is 1 modulo 4,
DISPLAY_COLON and CLEAR, by the spec's own decisions D10 to D13 (log 12); BUF, V and NEG only DISPLAY_NUMBER. -/
def Obligations.RegisterWriters : Prop :=
  ∀ (i : Instr) (s t : State), s.seq = .idle → exec i s = .next t →
    ((∀ e b n, i ≠ .init e b n) → t.size = s.size ∧ t.initDone = s.initDone) ∧
    ((∀ e b n, i ≠ .init e b n) → (∀ f, i ≠ .setEnabled f) → (∀ l, i ≠ .setBrightness l) → t.config = s.config) ∧
    ((∀ e b n, i ≠ .init e b n) → (∀ p d, i = .displayDigit p d → p.toNat % 4 ≠ 1) → (∀ f, i ≠ .displayColon f) →
      i ≠ .clear → t.seg1 = s.seg1) ∧
    ((∀ v z d, i ≠ .displayNumber v z d) → t.buf = s.buf ∧ t.v = s.v ∧ t.neg = s.neg)

/-- 30_encoding.md R90 and R91, 43_rendering.md R212 (derived there): whatever a request is, what it adds to the trace is
INIT's line set-up, for an INIT alone, and then whole transactions, each the data command alone, an address command and
one pattern, or a display-control command alone, with no byte outside a transaction. -/
def Obligations.OnlyKnownTransactionsAreSent : Prop :=
  ∀ (i : Instr) (s t : State), i.isRequest = true → s.seq = .idle → exec i s = .next t →
    ∃ pre ts, t.trace = s.trace ++ pre ++ framesEvents ts (draws (byteCount ts) s) ∧
      (pre = [] ∨ (pre = setupEvents ∧ ∃ e b n, i = .init e b n)) ∧
      (∀ x ∈ ts, Sendable s.params x) ∧
      (∀ x ∈ ts, (∃ on level, x = [displayCommand s.params (cfg s.params on level)]) →
        x ≠ [dataCommand s.params] →
        (∃ e b n, i = .init e b n) ∨ (∃ f, i = .setEnabled f) ∨ ∃ l, i = .setBrightness l)

/-- 42_commands.md R161 and 60_exceptions.md R231: no acknowledgment value changes an operation's sequence or any
register but ACK and what is returned. Two runs of one request that differ only in what the environment gives send the
same transactions and end with the same lines and registers. SR and BITCNT, and after DISPLAY_NUMBER BUF, V and NEG, are
undefined there and left out (log 3); the levels sampled, and what records them, may differ. -/
def Obligations.AckValuesChangeNothingElse : Prop :=
  ∀ (i : Instr) (s t u : State) (slave : List Bool) (samples stream : Nat), i.isRequest = true →
    s.seq = .idle → exec i s = .next t →
    exec i { s with slave := slave, samples := samples, stream := stream } = .next u →
    (∃ pre ts acks acks', t.trace = s.trace ++ pre ++ framesEvents ts acks ∧ acks.length = byteCount ts ∧
      u.trace = s.trace ++ pre ++ framesEvents ts acks' ∧ acks'.length = byteCount ts) ∧
    t.clk = u.clk ∧ t.dio = u.dio ∧ t.initDone = u.initDone ∧ t.size = u.size ∧ t.config = u.config ∧
    t.seg1 = u.seg1 ∧ t.seq = u.seq ∧ t.refusals = u.refusals ∧ t.params = u.params ∧ t.pending = u.pending ∧
    t.results.length = u.results.length ∧
    ((∀ v z d, i ≠ .displayNumber v z d) → t.buf = u.buf ∧ t.v = u.v ∧ t.neg = u.neg)

/-- 70_reset_and_hazards.md section 4 (derived there): the least time of each operation, counting Waits only: 120 us for
INIT, SET_ENABLED and SET_BRIGHTNESS, 340 us for DISPLAY_SEGMENTS, DISPLAY_DIGIT and DISPLAY_COLON, 340 us a position for
DISPLAY_NUMBER and CLEAR. -/
def Obligations.OperationMinimumTimes : Prop :=
  ∀ s : State, s.seq = .idle →
    (s.initDone = false → ∀ e b n, 1 ≤ n.toNat → n.toNat ≤ 4 →
      ∃ t es, exec (.init e b n) s = .next t ∧ t.trace = s.trace ++ es ∧ minMicros es = 120) ∧
    (s.initDone = true →
      (∀ f, ∃ t es, exec (.setEnabled f) s = .next t ∧ t.trace = s.trace ++ es ∧ minMicros es = 120) ∧
      (∀ l, ∃ t es, exec (.setBrightness l) s = .next t ∧ t.trace = s.trace ++ es ∧ minMicros es = 120) ∧
      (∀ p x, ∃ t es, exec (.displaySegments p x) s = .next t ∧ t.trace = s.trace ++ es ∧ minMicros es = 340) ∧
      (∀ p d, ∃ t es, exec (.displayDigit p d) s = .next t ∧ t.trace = s.trace ++ es ∧ minMicros es = 340) ∧
      (∀ f, ∃ t es, exec (.displayColon f) s = .next t ∧ t.trace = s.trace ++ es ∧ minMicros es = 340) ∧
      (s.size ≤ 4 → ∀ v z d, v ≠ leastValue s.params →
        ∃ t es, exec (.displayNumber v z d) s = .next t ∧ t.trace = s.trace ++ es ∧ minMicros es = 340 * s.size) ∧
      (s.size ≤ 4 → ∃ t es, exec .clear s = .next t ∧ t.trace = s.trace ++ es ∧ minMicros es = 340 * s.size))

/-- 10_state.md section 4 (instances) and 20_memory.md section 6: a step of one instance leaves every other as it is, and
is that instance's own step. -/
def Obligations.InstancesAreIndependent : Prop :=
  ∀ (n : Nat) (ss tt : Instances), stepInstance n ss = .next tt →
    tt.length = ss.length ∧ (∀ m, m ≠ n → tt[m]? = ss[m]?) ∧
    ∀ s, ss[n]? = some s → ∃ t, step s = .next t ∧ tt[n]? = some t

/-! ### Encodings (30_encoding.md) -/

/-- Decoding the encoding of a well-formed request gives it back, with every operand at every value, for every setting of
the parameters. -/
def Obligations.RequestDecodesToItself : Prop :=
  ∀ (p : Params) (i : Instr), i.isRequest = true → i.wellFormed p = true →
    ∃ r, encode p i = some (.request r) ∧ decode p false (.request r) = .instr i

/-- Every wire byte kind decodes to itself from the byte the encoder gives it, a segment pattern as a second byte, the
commands as first bytes; and a first byte that decodes to anything is the encoding of what it decodes to. The class
values are R7's defaults, general knowledge in the spec (decision D19, log 6). -/
def Obligations.WireBytesDecodeToThemselves : Prop :=
  (∀ i : Instr, i.isWireByte = true → ∃ b, encode Params.defaults i = some (.wire b) ∧
    decode Params.defaults (decide (∃ x, i = .dataPattern x)) (.wire b) = .instr i) ∧
  ∀ (b : Byte) (i : Instr), decode Params.defaults false (.wire b) = .instr i →
    encode Params.defaults i = some (.wire b)

/-- Words of the spec's tables, under the default parameters (general knowledge, decision D19), and what they decode to.
That a word of which only SEL's bits are given is the request with every argument zero, as in the first three, is the
model's choice (log 8). -/
def Obligations.TableWordsDecode : Prop :=
  decodeTableWord 8 0x0 = some (.init false 0 0) ∧ decodeTableWord 8 0x7 = some .clear ∧
  decodeTableWord 8 0x9 = some (.reserved 1) ∧ decodeTableWord 8 0x44 = some .cmdSetDataMode ∧
  decodeTableWord 8 0xC2 = some (.cmdSetAddress 2) ∧ decodeTableWord 8 0x8D = some (.cmdSetDisplay true 5) ∧
  decodeTableWord 8 0x40 = none ∧ decodeTableWord 8 0xC4 = none ∧
  decodeRequest Params.defaults ⟨0x6, [-234, 0, 0]⟩ = .instr (.displayNumber (-234) false 0)

/-- 30_encoding.md, the wire bytes: each kind is made from the parameters and its fields and transmitted by WRITE_BYTE, a
segment pattern unchanged; nothing but the lines, ACK and the transient SR and BITCNT changes. That transmitting is what a
byte kind means as an instruction is the model's choice (log 9). -/
def Obligations.WireBytesAreTransmitted : Prop :=
  ∀ s : State,
    (∃ t, exec .cmdSetDataMode s = .next t ∧ t = wrote (s.params.cmdData ||| s.params.dataFixedAddr) s t) ∧
    (∀ pp : BitVec 2, ∃ t, exec (.cmdSetAddress pp) s = .next t ∧
      t = wrote (s.params.cmdAddr ||| pp.setWidth 8) s t) ∧
    (∀ (on : Bool) (bri : BitVec 3), ∃ t, exec (.cmdSetDisplay on bri) s = .next t ∧
      t = wrote (s.params.cmdDisplay ||| ((if on then s.params.displayOn else 0x00) ||| bri.setWidth 8)) s t) ∧
    (∀ x : Byte, ∃ t, exec (.dataPattern x) s = .next t ∧ t = wrote x s t)

/-! ### The observer and the display shadow (20_memory.md section 7) -/

/-- 20_memory.md R66 (the spec's own reading, decision D27), for all free values of the observer (D6, log 11): from the
idle bus, decoding the trace of a transaction gives back exactly its bytes, each with its acknowledgment, one start
condition, one stop condition, and the idle bus. -/
def Obligations.ObserverReadsBackTransactions : Prop :=
  ∀ (g : Free) (o : Obs) (bytes : List Byte) (acks : List Bool), o.busIdle → acks.length = bytes.length →
    (o.replay g (frameEvents bytes acks)).busIdle ∧
    (o.replay g (frameEvents bytes acks)).starts = o.starts + 1 ∧
    (o.replay g (frameEvents bytes acks)).stops = o.stops + 1 ∧
    (o.replay g (frameEvents bytes acks)).closed = o.closed ++ [List.zipWith (fun x a => ⟨x, some a⟩) bytes acks]

/-- 20_memory.md R67 (the spec's own reading, decision D27, log 11), under the default parameters (D19, log 6): after
DISPLAY_SEGMENTS the shadow shows the pattern at the masked position, in fixed-address mode, and is unchanged elsewhere,
for all free values of the observer. -/
def Obligations.ShadowShowsTheSegmentsSent : Prop :=
  ∀ (position pattern : Byte) (s : State) (g : Free), Invariant s → s.initDone = true → s.params = Params.defaults →
    ∃ t, exec (.displaySegments position pattern) s = .next t ∧
      shadow t.params g t.trace =
        { shadow s.params g s.trace with
          mode := some 0x44,
          shown := (shadow s.params g s.trace).shown.setIfInBounds (position.toNat % 4) (some pattern) }

/-- 43_rendering.md R211 (derived there), in the shadow of R67 (the spec's own reading, decision D27, log 11) and under the
default parameters (the digit table of D20, log 6), for all free values of the observer: after CLEAR one DISPLAY_DIGIT at
a position below SIZE leaves that digit's pattern there and 0x00 at every other position of the display; the pattern is
not 0x00 exactly for the digits 0..9. -/
def Obligations.ClearThenDigitShowsOneDigit : Prop :=
  ∀ (position digit : Byte) (s : State) (g : Free), Invariant s → s.initDone = true → s.params = Params.defaults →
    position.toNat % 4 < s.size →
    ∃ t u, exec .clear s = .next t ∧ exec (.displayDigit position digit) t = .next u ∧
      (∀ i < s.size, (shadow u.params g u.trace).shown[i]? =
        some (some (if i = position.toNat % 4 then segOf s.params digit.toNat else 0x00))) ∧
      (segOf s.params digit.toNat ≠ 0x00 ↔ digit.toNat < 10)

/-- 70_reset_and_hazards.md section 2, the pre-initialize glitch, read by the observer of R66 (D27) for all its free
values (D6, log 11): whatever conditions the line set-up made, INIT's own transaction is one start condition, its byte
with its acknowledgment, one stop condition, and the idle bus. A transaction that the set-up seemed to make holds no
byte. -/
def Obligations.InitFramesItsByte : Prop :=
  ∀ (enabled : Bool) (brightness size : Byte) (s : State) (g : Free),
    s.seq = .idle → s.initDone = false → s.trace = [] → 1 ≤ size.toNat → size.toNat ≤ 4 →
    ∃ t, exec (.init enabled brightness size) s = .next t ∧
      (observe g t.trace).busIdle ∧
      (observe g t.trace).starts = (observe g setupEvents).starts + 1 ∧
      (observe g t.trace).stops = (observe g setupEvents).stops + 1 ∧
      (observe g t.trace).closed =
        (observe g setupEvents).closed ++ [[⟨displayCommand s.params (cfg s.params enabled brightness), some t.ack⟩]] ∧
      ∀ x ∈ (observe g setupEvents).closed, x = []

/-- 70_reset_and_hazards.md section 2: the model does not claim that no condition is seen before INIT's START. The
observer's free values (D6, log 11) admit none, a start condition, and a stop condition in the line set-up. -/
def Obligations.PreInitConditionsAreOpen : Prop :=
  (∃ g : Free, (observe g setupEvents).starts = 0 ∧ (observe g setupEvents).stops = 0) ∧
  (∃ g : Free, (observe g setupEvents).starts = 1 ∧ (observe g setupEvents).framed = true) ∧
  ∃ g : Free, (observe g setupEvents).stops = 1

/-! ### The serializer's registers (10_state.md section 3) -/

/-- 10_state.md section 3 (that SR and BITCNT are registers is the spec's own decision D1): WRITE_BYTE begins with SR
loaded and goes on with six micro-steps a data bit. After i of the bits BITCNT is i and the low i bits of the byte are
shifted out of SR; the next six micro-steps drive DIO to SR's lowest bit, which is bit i of the byte. After eight no bit is
left. -/
def Obligations.SerializerShiftsTheByteOut : Prop :=
  ∀ (x : Byte) (s : State), (.loadSr x :: dataSteps) <+: byteSteps x ∧
    ∀ i ≤ 8, ∃ u, u = run (.loadSr x :: dataSteps.take (6 * i)) s ∧
      u.sr = x >>> i ∧ u.bitcnt.val = i ∧ (i < 8 → u.sr.getLsbD 0 = x.getLsbD i) ∧ (i = 8 → u.sr = 0x00) ∧
      ∀ h : i < 8, run (.loadSr x :: dataSteps.take (6 * (i + 1))) s = run (bitSteps ⟨i, h⟩) u ∧
        (run (bitSteps ⟨i, h⟩) u).dio.latch = x.getLsbD i

/-! ### What an instance sends, as an invariant -/

/-- A new instance has sent nothing. -/
def Obligations.ResetSentOnlyKnown : Prop := SentOnlyKnown State.reset

/-- 30_encoding.md section 3, 20_memory.md section 4 and 43_rendering.md (derived there), as an invariant that every step
keeps, whatever the requests and the acknowledgments: the trace is empty before INIT, and from INIT on it is the line set-up
and whole transactions, each of which is the data command alone, an address command and one pattern, or a display-control
command alone. -/
def Obligations.StepSendsOnlyKnownTransactions : Prop :=
  ∀ s t : State, SentOnlyKnown s → step s = .next t → SentOnlyKnown t

/-- 10_state.md section 4 and 60_exceptions.md section 5: a created instance is a new one, and those that were there stay
as they are. Its stream of free values is its own (the model's choice, log 2). -/
def Obligations.CreatedInstanceIsNew : Prop :=
  ∀ ss : Instances, (createInstance ss).length = ss.length + 1 ∧
    (createInstance ss)[ss.length]? = some { State.reset with stream := ss.length } ∧
    ∀ n < ss.length, (createInstance ss)[n]? = ss[n]?
end

