-- ==== Sys2Proof/Laws/State.lean ====
section
/-! SUPPORT. What each named update does to each field of State: one lemma per field per update, true by definition. -/

namespace Sys2Proof.Machine

variable (s : State)

/-! ### emit -/

@[simp] theorem emit_clk (e : Event) : (emit e s).clk = s.clk := rfl
@[simp] theorem emit_dio (e : Event) : (emit e s).dio = s.dio := rfl
@[simp] theorem emit_initDone (e : Event) : (emit e s).initDone = s.initDone := rfl
@[simp] theorem emit_size (e : Event) : (emit e s).size = s.size := rfl
@[simp] theorem emit_config (e : Event) : (emit e s).config = s.config := rfl
@[simp] theorem emit_seg1 (e : Event) : (emit e s).seg1 = s.seg1 := rfl
@[simp] theorem emit_ack (e : Event) : (emit e s).ack = s.ack := rfl
@[simp] theorem emit_seq (e : Event) : (emit e s).seq = s.seq.advance := rfl
@[simp] theorem emit_sr (e : Event) : (emit e s).sr = s.sr := rfl
@[simp] theorem emit_bitcnt (e : Event) : (emit e s).bitcnt = s.bitcnt := rfl
@[simp] theorem emit_buf (e : Event) : (emit e s).buf = s.buf := rfl
@[simp] theorem emit_v (e : Event) : (emit e s).v = s.v := rfl
@[simp] theorem emit_neg (e : Event) : (emit e s).neg = s.neg := rfl
@[simp] theorem emit_trace (e : Event) : (emit e s).trace = s.trace ++ [e] := rfl
@[simp] theorem emit_results (e : Event) : (emit e s).results = s.results := rfl
@[simp] theorem emit_refusals (e : Event) : (emit e s).refusals = s.refusals := rfl
@[simp] theorem emit_params (e : Event) : (emit e s).params = s.params := rfl
@[simp] theorem emit_pending (e : Event) : (emit e s).pending = s.pending := rfl
@[simp] theorem emit_slave (e : Event) : (emit e s).slave = s.slave := rfl
@[simp] theorem emit_samples (e : Event) : (emit e s).samples = s.samples := rfl
@[simp] theorem emit_stream (e : Event) : (emit e s).stream = s.stream := rfl
@[simp] theorem emit_undefs (e : Event) : (emit e s).undefs = s.undefs := rfl
@[simp] theorem emit_todo (e : Event) : (emit e s).todo = s.todo := rfl
@[simp] theorem emit_ret (e : Event) : (emit e s).ret = s.ret := rfl

/-! ### consumeDraw -/

@[simp] theorem consumeDraw_clk : s.consumeDraw.clk = s.clk := rfl
@[simp] theorem consumeDraw_dio : s.consumeDraw.dio = s.dio := rfl
@[simp] theorem consumeDraw_initDone : s.consumeDraw.initDone = s.initDone := rfl
@[simp] theorem consumeDraw_size : s.consumeDraw.size = s.size := rfl
@[simp] theorem consumeDraw_config : s.consumeDraw.config = s.config := rfl
@[simp] theorem consumeDraw_seg1 : s.consumeDraw.seg1 = s.seg1 := rfl
@[simp] theorem consumeDraw_ack : s.consumeDraw.ack = s.ack := rfl
@[simp] theorem consumeDraw_seq : s.consumeDraw.seq = s.seq := rfl
@[simp] theorem consumeDraw_sr : s.consumeDraw.sr = s.sr := rfl
@[simp] theorem consumeDraw_bitcnt : s.consumeDraw.bitcnt = s.bitcnt := rfl
@[simp] theorem consumeDraw_buf : s.consumeDraw.buf = s.buf := rfl
@[simp] theorem consumeDraw_v : s.consumeDraw.v = s.v := rfl
@[simp] theorem consumeDraw_neg : s.consumeDraw.neg = s.neg := rfl
@[simp] theorem consumeDraw_trace : s.consumeDraw.trace = s.trace := rfl
@[simp] theorem consumeDraw_results : s.consumeDraw.results = s.results := rfl
@[simp] theorem consumeDraw_refusals : s.consumeDraw.refusals = s.refusals := rfl
@[simp] theorem consumeDraw_params : s.consumeDraw.params = s.params := rfl
@[simp] theorem consumeDraw_pending : s.consumeDraw.pending = s.pending := rfl
@[simp] theorem consumeDraw_slave : s.consumeDraw.slave = s.slave.tail := rfl
@[simp] theorem consumeDraw_samples : s.consumeDraw.samples = s.samples + 1 := rfl
@[simp] theorem consumeDraw_stream : s.consumeDraw.stream = s.stream := rfl
@[simp] theorem consumeDraw_undefs : s.consumeDraw.undefs = s.undefs := rfl
@[simp] theorem consumeDraw_todo : s.consumeDraw.todo = s.todo := rfl
@[simp] theorem consumeDraw_ret : s.consumeDraw.ret = s.ret := rfl

/-! ### waitUnit -/

@[simp] theorem waitUnit_clk : (waitUnit s).clk = s.clk := rfl
@[simp] theorem waitUnit_dio : (waitUnit s).dio = s.dio := rfl
@[simp] theorem waitUnit_initDone : (waitUnit s).initDone = s.initDone := rfl
@[simp] theorem waitUnit_size : (waitUnit s).size = s.size := rfl
@[simp] theorem waitUnit_config : (waitUnit s).config = s.config := rfl
@[simp] theorem waitUnit_seg1 : (waitUnit s).seg1 = s.seg1 := rfl
@[simp] theorem waitUnit_ack : (waitUnit s).ack = s.ack := rfl
@[simp] theorem waitUnit_seq : (waitUnit s).seq = s.seq.advance := rfl
@[simp] theorem waitUnit_sr : (waitUnit s).sr = s.sr := rfl
@[simp] theorem waitUnit_bitcnt : (waitUnit s).bitcnt = s.bitcnt := rfl
@[simp] theorem waitUnit_buf : (waitUnit s).buf = s.buf := rfl
@[simp] theorem waitUnit_v : (waitUnit s).v = s.v := rfl
@[simp] theorem waitUnit_neg : (waitUnit s).neg = s.neg := rfl
@[simp] theorem waitUnit_trace : (waitUnit s).trace = s.trace ++ [.wait] := rfl
@[simp] theorem waitUnit_results : (waitUnit s).results = s.results := rfl
@[simp] theorem waitUnit_refusals : (waitUnit s).refusals = s.refusals := rfl
@[simp] theorem waitUnit_params : (waitUnit s).params = s.params := rfl
@[simp] theorem waitUnit_pending : (waitUnit s).pending = s.pending := rfl
@[simp] theorem waitUnit_slave : (waitUnit s).slave = s.slave := rfl
@[simp] theorem waitUnit_samples : (waitUnit s).samples = s.samples := rfl
@[simp] theorem waitUnit_stream : (waitUnit s).stream = s.stream := rfl
@[simp] theorem waitUnit_undefs : (waitUnit s).undefs = s.undefs := rfl
@[simp] theorem waitUnit_todo : (waitUnit s).todo = s.todo := rfl
@[simp] theorem waitUnit_ret : (waitUnit s).ret = s.ret := rfl

/-! ### sample -/

@[simp] theorem sample_clk (l : LineName) : (sample l s).clk = s.clk := rfl
@[simp] theorem sample_dio (l : LineName) : (sample l s).dio = s.dio := rfl
@[simp] theorem sample_initDone (l : LineName) : (sample l s).initDone = s.initDone := rfl
@[simp] theorem sample_size (l : LineName) : (sample l s).size = s.size := rfl
@[simp] theorem sample_config (l : LineName) : (sample l s).config = s.config := rfl
@[simp] theorem sample_seg1 (l : LineName) : (sample l s).seg1 = s.seg1 := rfl
@[simp] theorem sample_ack (l : LineName) : (sample l s).ack = s.ack := rfl
@[simp] theorem sample_seq (l : LineName) : (sample l s).seq = s.seq.advance := rfl
@[simp] theorem sample_sr (l : LineName) : (sample l s).sr = s.sr := rfl
@[simp] theorem sample_bitcnt (l : LineName) : (sample l s).bitcnt = s.bitcnt := rfl
@[simp] theorem sample_buf (l : LineName) : (sample l s).buf = s.buf := rfl
@[simp] theorem sample_v (l : LineName) : (sample l s).v = s.v := rfl
@[simp] theorem sample_neg (l : LineName) : (sample l s).neg = s.neg := rfl
@[simp] theorem sample_trace (l : LineName) : (sample l s).trace = s.trace ++ [.sample l (draw s)] := rfl
@[simp] theorem sample_results (l : LineName) : (sample l s).results = s.results := rfl
@[simp] theorem sample_refusals (l : LineName) : (sample l s).refusals = s.refusals := rfl
@[simp] theorem sample_params (l : LineName) : (sample l s).params = s.params := rfl
@[simp] theorem sample_pending (l : LineName) : (sample l s).pending = s.pending := rfl
@[simp] theorem sample_slave (l : LineName) : (sample l s).slave = s.slave.tail := rfl
@[simp] theorem sample_samples (l : LineName) : (sample l s).samples = s.samples + 1 := rfl
@[simp] theorem sample_stream (l : LineName) : (sample l s).stream = s.stream := rfl
@[simp] theorem sample_undefs (l : LineName) : (sample l s).undefs = s.undefs := rfl
@[simp] theorem sample_todo (l : LineName) : (sample l s).todo = s.todo := rfl
@[simp] theorem sample_ret (l : LineName) : (sample l s).ret = s.ret ++ [draw s] := rfl

/-! ### sampleAck -/

@[simp] theorem sampleAck_clk : (sampleAck s).clk = s.clk := rfl
@[simp] theorem sampleAck_dio : (sampleAck s).dio = s.dio := rfl
@[simp] theorem sampleAck_initDone : (sampleAck s).initDone = s.initDone := rfl
@[simp] theorem sampleAck_size : (sampleAck s).size = s.size := rfl
@[simp] theorem sampleAck_config : (sampleAck s).config = s.config := rfl
@[simp] theorem sampleAck_seg1 : (sampleAck s).seg1 = s.seg1 := rfl
@[simp] theorem sampleAck_ack : (sampleAck s).ack = draw s := rfl
@[simp] theorem sampleAck_seq : (sampleAck s).seq = s.seq.advance := rfl
@[simp] theorem sampleAck_sr : (sampleAck s).sr = s.sr := rfl
@[simp] theorem sampleAck_bitcnt : (sampleAck s).bitcnt = s.bitcnt := rfl
@[simp] theorem sampleAck_buf : (sampleAck s).buf = s.buf := rfl
@[simp] theorem sampleAck_v : (sampleAck s).v = s.v := rfl
@[simp] theorem sampleAck_neg : (sampleAck s).neg = s.neg := rfl
@[simp] theorem sampleAck_trace : (sampleAck s).trace = s.trace ++ [.sample .dio (draw s)] := rfl
@[simp] theorem sampleAck_results : (sampleAck s).results = s.results := rfl
@[simp] theorem sampleAck_refusals : (sampleAck s).refusals = s.refusals := rfl
@[simp] theorem sampleAck_params : (sampleAck s).params = s.params := rfl
@[simp] theorem sampleAck_pending : (sampleAck s).pending = s.pending := rfl
@[simp] theorem sampleAck_slave : (sampleAck s).slave = s.slave.tail := rfl
@[simp] theorem sampleAck_samples : (sampleAck s).samples = s.samples + 1 := rfl
@[simp] theorem sampleAck_stream : (sampleAck s).stream = s.stream := rfl
@[simp] theorem sampleAck_undefs : (sampleAck s).undefs = s.undefs := rfl
@[simp] theorem sampleAck_todo : (sampleAck s).todo = s.todo := rfl
@[simp] theorem sampleAck_ret : (sampleAck s).ret = s.ret ++ [draw s] := rfl

/-! ### loadSr -/

@[simp] theorem loadSr_clk (x : Byte) : (loadSr x s).clk = s.clk := rfl
@[simp] theorem loadSr_dio (x : Byte) : (loadSr x s).dio = s.dio := rfl
@[simp] theorem loadSr_initDone (x : Byte) : (loadSr x s).initDone = s.initDone := rfl
@[simp] theorem loadSr_size (x : Byte) : (loadSr x s).size = s.size := rfl
@[simp] theorem loadSr_config (x : Byte) : (loadSr x s).config = s.config := rfl
@[simp] theorem loadSr_seg1 (x : Byte) : (loadSr x s).seg1 = s.seg1 := rfl
@[simp] theorem loadSr_ack (x : Byte) : (loadSr x s).ack = s.ack := rfl
@[simp] theorem loadSr_seq (x : Byte) : (loadSr x s).seq = s.seq := rfl
@[simp] theorem loadSr_sr (x : Byte) : (loadSr x s).sr = x := rfl
@[simp] theorem loadSr_bitcnt (x : Byte) : (loadSr x s).bitcnt = 0 := rfl
@[simp] theorem loadSr_buf (x : Byte) : (loadSr x s).buf = s.buf := rfl
@[simp] theorem loadSr_v (x : Byte) : (loadSr x s).v = s.v := rfl
@[simp] theorem loadSr_neg (x : Byte) : (loadSr x s).neg = s.neg := rfl
@[simp] theorem loadSr_trace (x : Byte) : (loadSr x s).trace = s.trace := rfl
@[simp] theorem loadSr_results (x : Byte) : (loadSr x s).results = s.results := rfl
@[simp] theorem loadSr_refusals (x : Byte) : (loadSr x s).refusals = s.refusals := rfl
@[simp] theorem loadSr_params (x : Byte) : (loadSr x s).params = s.params := rfl
@[simp] theorem loadSr_pending (x : Byte) : (loadSr x s).pending = s.pending := rfl
@[simp] theorem loadSr_slave (x : Byte) : (loadSr x s).slave = s.slave := rfl
@[simp] theorem loadSr_samples (x : Byte) : (loadSr x s).samples = s.samples := rfl
@[simp] theorem loadSr_stream (x : Byte) : (loadSr x s).stream = s.stream := rfl
@[simp] theorem loadSr_undefs (x : Byte) : (loadSr x s).undefs = s.undefs := rfl
@[simp] theorem loadSr_todo (x : Byte) : (loadSr x s).todo = s.todo := rfl
@[simp] theorem loadSr_ret (x : Byte) : (loadSr x s).ret = s.ret := rfl

/-! ### shiftSr -/

@[simp] theorem shiftSr_clk (i : Fin 8) : (shiftSr i s).clk = s.clk := rfl
@[simp] theorem shiftSr_dio (i : Fin 8) : (shiftSr i s).dio = s.dio := rfl
@[simp] theorem shiftSr_initDone (i : Fin 8) : (shiftSr i s).initDone = s.initDone := rfl
@[simp] theorem shiftSr_size (i : Fin 8) : (shiftSr i s).size = s.size := rfl
@[simp] theorem shiftSr_config (i : Fin 8) : (shiftSr i s).config = s.config := rfl
@[simp] theorem shiftSr_seg1 (i : Fin 8) : (shiftSr i s).seg1 = s.seg1 := rfl
@[simp] theorem shiftSr_ack (i : Fin 8) : (shiftSr i s).ack = s.ack := rfl
@[simp] theorem shiftSr_seq (i : Fin 8) : (shiftSr i s).seq = s.seq := rfl
@[simp] theorem shiftSr_sr (i : Fin 8) : (shiftSr i s).sr = s.sr >>> 1 := rfl
@[simp] theorem shiftSr_bitcnt (i : Fin 8) : (shiftSr i s).bitcnt = i.succ := rfl
@[simp] theorem shiftSr_buf (i : Fin 8) : (shiftSr i s).buf = s.buf := rfl
@[simp] theorem shiftSr_v (i : Fin 8) : (shiftSr i s).v = s.v := rfl
@[simp] theorem shiftSr_neg (i : Fin 8) : (shiftSr i s).neg = s.neg := rfl
@[simp] theorem shiftSr_trace (i : Fin 8) : (shiftSr i s).trace = s.trace := rfl
@[simp] theorem shiftSr_results (i : Fin 8) : (shiftSr i s).results = s.results := rfl
@[simp] theorem shiftSr_refusals (i : Fin 8) : (shiftSr i s).refusals = s.refusals := rfl
@[simp] theorem shiftSr_params (i : Fin 8) : (shiftSr i s).params = s.params := rfl
@[simp] theorem shiftSr_pending (i : Fin 8) : (shiftSr i s).pending = s.pending := rfl
@[simp] theorem shiftSr_slave (i : Fin 8) : (shiftSr i s).slave = s.slave := rfl
@[simp] theorem shiftSr_samples (i : Fin 8) : (shiftSr i s).samples = s.samples := rfl
@[simp] theorem shiftSr_stream (i : Fin 8) : (shiftSr i s).stream = s.stream := rfl
@[simp] theorem shiftSr_undefs (i : Fin 8) : (shiftSr i s).undefs = s.undefs := rfl
@[simp] theorem shiftSr_todo (i : Fin 8) : (shiftSr i s).todo = s.todo := rfl
@[simp] theorem shiftSr_ret (i : Fin 8) : (shiftSr i s).ret = s.ret := rfl

/-! ### setNumber -/

@[simp] theorem setNumber_clk (r : NumRegs) : (setNumber r s).clk = s.clk := rfl
@[simp] theorem setNumber_dio (r : NumRegs) : (setNumber r s).dio = s.dio := rfl
@[simp] theorem setNumber_initDone (r : NumRegs) : (setNumber r s).initDone = s.initDone := rfl
@[simp] theorem setNumber_size (r : NumRegs) : (setNumber r s).size = s.size := rfl
@[simp] theorem setNumber_config (r : NumRegs) : (setNumber r s).config = s.config := rfl
@[simp] theorem setNumber_seg1 (r : NumRegs) : (setNumber r s).seg1 = s.seg1 := rfl
@[simp] theorem setNumber_ack (r : NumRegs) : (setNumber r s).ack = s.ack := rfl
@[simp] theorem setNumber_seq (r : NumRegs) : (setNumber r s).seq = s.seq := rfl
@[simp] theorem setNumber_sr (r : NumRegs) : (setNumber r s).sr = s.sr := rfl
@[simp] theorem setNumber_bitcnt (r : NumRegs) : (setNumber r s).bitcnt = s.bitcnt := rfl
@[simp] theorem setNumber_buf (r : NumRegs) : (setNumber r s).buf = r.buf := rfl
@[simp] theorem setNumber_v (r : NumRegs) : (setNumber r s).v = r.v := rfl
@[simp] theorem setNumber_neg (r : NumRegs) : (setNumber r s).neg = r.neg := rfl
@[simp] theorem setNumber_trace (r : NumRegs) : (setNumber r s).trace = s.trace := rfl
@[simp] theorem setNumber_results (r : NumRegs) : (setNumber r s).results = s.results := rfl
@[simp] theorem setNumber_refusals (r : NumRegs) : (setNumber r s).refusals = s.refusals := rfl
@[simp] theorem setNumber_params (r : NumRegs) : (setNumber r s).params = s.params := rfl
@[simp] theorem setNumber_pending (r : NumRegs) : (setNumber r s).pending = s.pending := rfl
@[simp] theorem setNumber_slave (r : NumRegs) : (setNumber r s).slave = s.slave := rfl
@[simp] theorem setNumber_samples (r : NumRegs) : (setNumber r s).samples = s.samples := rfl
@[simp] theorem setNumber_stream (r : NumRegs) : (setNumber r s).stream = s.stream := rfl
@[simp] theorem setNumber_undefs (r : NumRegs) : (setNumber r s).undefs = s.undefs := rfl
@[simp] theorem setNumber_todo (r : NumRegs) : (setNumber r s).todo = s.todo := rfl
@[simp] theorem setNumber_ret (r : NumRegs) : (setNumber r s).ret = s.ret := rfl

/-! ### undefSerializer -/

@[simp] theorem undefSerializer_clk : (undefSerializer s).clk = s.clk := rfl
@[simp] theorem undefSerializer_dio : (undefSerializer s).dio = s.dio := rfl
@[simp] theorem undefSerializer_initDone : (undefSerializer s).initDone = s.initDone := rfl
@[simp] theorem undefSerializer_size : (undefSerializer s).size = s.size := rfl
@[simp] theorem undefSerializer_config : (undefSerializer s).config = s.config := rfl
@[simp] theorem undefSerializer_seg1 : (undefSerializer s).seg1 = s.seg1 := rfl
@[simp] theorem undefSerializer_ack : (undefSerializer s).ack = s.ack := rfl
@[simp] theorem undefSerializer_seq : (undefSerializer s).seq = s.seq := rfl
@[simp] theorem undefSerializer_sr : (undefSerializer s).sr = Config.undefSr s.stream s.undefs := rfl
@[simp] theorem undefSerializer_bitcnt : (undefSerializer s).bitcnt = Config.undefBitcnt s.stream s.undefs := rfl
@[simp] theorem undefSerializer_buf : (undefSerializer s).buf = s.buf := rfl
@[simp] theorem undefSerializer_v : (undefSerializer s).v = s.v := rfl
@[simp] theorem undefSerializer_neg : (undefSerializer s).neg = s.neg := rfl
@[simp] theorem undefSerializer_trace : (undefSerializer s).trace = s.trace := rfl
@[simp] theorem undefSerializer_results : (undefSerializer s).results = s.results := rfl
@[simp] theorem undefSerializer_refusals : (undefSerializer s).refusals = s.refusals := rfl
@[simp] theorem undefSerializer_params : (undefSerializer s).params = s.params := rfl
@[simp] theorem undefSerializer_pending : (undefSerializer s).pending = s.pending := rfl
@[simp] theorem undefSerializer_slave : (undefSerializer s).slave = s.slave := rfl
@[simp] theorem undefSerializer_samples : (undefSerializer s).samples = s.samples := rfl
@[simp] theorem undefSerializer_stream : (undefSerializer s).stream = s.stream := rfl
@[simp] theorem undefSerializer_undefs : (undefSerializer s).undefs = s.undefs + 1 := rfl
@[simp] theorem undefSerializer_todo : (undefSerializer s).todo = s.todo := rfl
@[simp] theorem undefSerializer_ret : (undefSerializer s).ret = s.ret := rfl

/-! ### undefNumber -/

@[simp] theorem undefNumber_clk : (undefNumber s).clk = s.clk := rfl
@[simp] theorem undefNumber_dio : (undefNumber s).dio = s.dio := rfl
@[simp] theorem undefNumber_initDone : (undefNumber s).initDone = s.initDone := rfl
@[simp] theorem undefNumber_size : (undefNumber s).size = s.size := rfl
@[simp] theorem undefNumber_config : (undefNumber s).config = s.config := rfl
@[simp] theorem undefNumber_seg1 : (undefNumber s).seg1 = s.seg1 := rfl
@[simp] theorem undefNumber_ack : (undefNumber s).ack = s.ack := rfl
@[simp] theorem undefNumber_seq : (undefNumber s).seq = s.seq := rfl
@[simp] theorem undefNumber_sr : (undefNumber s).sr = s.sr := rfl
@[simp] theorem undefNumber_bitcnt : (undefNumber s).bitcnt = s.bitcnt := rfl
@[simp] theorem undefNumber_buf : (undefNumber s).buf = Config.undefBuf s.stream s.undefs := rfl
@[simp] theorem undefNumber_v : (undefNumber s).v = Config.undefV s.stream s.undefs := rfl
@[simp] theorem undefNumber_neg : (undefNumber s).neg = Config.undefNeg s.stream s.undefs := rfl
@[simp] theorem undefNumber_trace : (undefNumber s).trace = s.trace := rfl
@[simp] theorem undefNumber_results : (undefNumber s).results = s.results := rfl
@[simp] theorem undefNumber_refusals : (undefNumber s).refusals = s.refusals := rfl
@[simp] theorem undefNumber_params : (undefNumber s).params = s.params := rfl
@[simp] theorem undefNumber_pending : (undefNumber s).pending = s.pending := rfl
@[simp] theorem undefNumber_slave : (undefNumber s).slave = s.slave := rfl
@[simp] theorem undefNumber_samples : (undefNumber s).samples = s.samples := rfl
@[simp] theorem undefNumber_stream : (undefNumber s).stream = s.stream := rfl
@[simp] theorem undefNumber_undefs : (undefNumber s).undefs = s.undefs + 1 := rfl
@[simp] theorem undefNumber_todo : (undefNumber s).todo = s.todo := rfl
@[simp] theorem undefNumber_ret : (undefNumber s).ret = s.ret := rfl

/-! ### refuse -/

@[simp] theorem refuse_clk (w : RefuseReason) : (refuse w s).clk = s.clk := rfl
@[simp] theorem refuse_dio (w : RefuseReason) : (refuse w s).dio = s.dio := rfl
@[simp] theorem refuse_initDone (w : RefuseReason) : (refuse w s).initDone = s.initDone := rfl
@[simp] theorem refuse_size (w : RefuseReason) : (refuse w s).size = s.size := rfl
@[simp] theorem refuse_config (w : RefuseReason) : (refuse w s).config = s.config := rfl
@[simp] theorem refuse_seg1 (w : RefuseReason) : (refuse w s).seg1 = s.seg1 := rfl
@[simp] theorem refuse_ack (w : RefuseReason) : (refuse w s).ack = s.ack := rfl
@[simp] theorem refuse_seq (w : RefuseReason) : (refuse w s).seq = s.seq := rfl
@[simp] theorem refuse_sr (w : RefuseReason) : (refuse w s).sr = s.sr := rfl
@[simp] theorem refuse_bitcnt (w : RefuseReason) : (refuse w s).bitcnt = s.bitcnt := rfl
@[simp] theorem refuse_buf (w : RefuseReason) : (refuse w s).buf = s.buf := rfl
@[simp] theorem refuse_v (w : RefuseReason) : (refuse w s).v = s.v := rfl
@[simp] theorem refuse_neg (w : RefuseReason) : (refuse w s).neg = s.neg := rfl
@[simp] theorem refuse_trace (w : RefuseReason) : (refuse w s).trace = s.trace := rfl
@[simp] theorem refuse_results (w : RefuseReason) : (refuse w s).results = s.results := rfl
@[simp] theorem refuse_refusals (w : RefuseReason) : (refuse w s).refusals = s.refusals ++ [w] := rfl
@[simp] theorem refuse_params (w : RefuseReason) : (refuse w s).params = s.params := rfl
@[simp] theorem refuse_pending (w : RefuseReason) : (refuse w s).pending = s.pending := rfl
@[simp] theorem refuse_slave (w : RefuseReason) : (refuse w s).slave = s.slave := rfl
@[simp] theorem refuse_samples (w : RefuseReason) : (refuse w s).samples = s.samples := rfl
@[simp] theorem refuse_stream (w : RefuseReason) : (refuse w s).stream = s.stream := rfl
@[simp] theorem refuse_undefs (w : RefuseReason) : (refuse w s).undefs = s.undefs := rfl
@[simp] theorem refuse_todo (w : RefuseReason) : (refuse w s).todo = s.todo := rfl
@[simp] theorem refuse_ret (w : RefuseReason) : (refuse w s).ret = s.ret := rfl

/-! ### accept -/

@[simp] theorem accept_clk (i : Instr) (p : List Micro) : (accept i p s).clk = s.clk := rfl
@[simp] theorem accept_dio (i : Instr) (p : List Micro) : (accept i p s).dio = s.dio := rfl
@[simp] theorem accept_initDone (i : Instr) (p : List Micro) : (accept i p s).initDone = s.initDone := rfl
@[simp] theorem accept_size (i : Instr) (p : List Micro) : (accept i p s).size = s.size := rfl
@[simp] theorem accept_config (i : Instr) (p : List Micro) : (accept i p s).config = s.config := rfl
@[simp] theorem accept_seg1 (i : Instr) (p : List Micro) : (accept i p s).seg1 = s.seg1 := rfl
@[simp] theorem accept_ack (i : Instr) (p : List Micro) : (accept i p s).ack = s.ack := rfl
@[simp] theorem accept_seq (i : Instr) (p : List Micro) : (accept i p s).seq = .busy i 0 := rfl
@[simp] theorem accept_sr (i : Instr) (p : List Micro) : (accept i p s).sr = s.sr := rfl
@[simp] theorem accept_bitcnt (i : Instr) (p : List Micro) : (accept i p s).bitcnt = s.bitcnt := rfl
@[simp] theorem accept_buf (i : Instr) (p : List Micro) : (accept i p s).buf = s.buf := rfl
@[simp] theorem accept_v (i : Instr) (p : List Micro) : (accept i p s).v = s.v := rfl
@[simp] theorem accept_neg (i : Instr) (p : List Micro) : (accept i p s).neg = s.neg := rfl
@[simp] theorem accept_trace (i : Instr) (p : List Micro) : (accept i p s).trace = s.trace := rfl
@[simp] theorem accept_results (i : Instr) (p : List Micro) : (accept i p s).results = s.results := rfl
@[simp] theorem accept_refusals (i : Instr) (p : List Micro) : (accept i p s).refusals = s.refusals := rfl
@[simp] theorem accept_params (i : Instr) (p : List Micro) : (accept i p s).params = s.params := rfl
@[simp] theorem accept_pending (i : Instr) (p : List Micro) : (accept i p s).pending = s.pending := rfl
@[simp] theorem accept_slave (i : Instr) (p : List Micro) : (accept i p s).slave = s.slave := rfl
@[simp] theorem accept_samples (i : Instr) (p : List Micro) : (accept i p s).samples = s.samples := rfl
@[simp] theorem accept_stream (i : Instr) (p : List Micro) : (accept i p s).stream = s.stream := rfl
@[simp] theorem accept_undefs (i : Instr) (p : List Micro) : (accept i p s).undefs = s.undefs := rfl
@[simp] theorem accept_todo (i : Instr) (p : List Micro) : (accept i p s).todo = p := rfl
@[simp] theorem accept_ret (i : Instr) (p : List Micro) : (accept i p s).ret = [] := rfl

/-! ### setLine, setDir, drive: the line written, the other line, and everything else -/

@[simp] theorem setLine_line_self (l : LineName) (x : Line) : (s.setLine l x).line l = x := by cases l <;> rfl
theorem setLine_line_ne {l m : LineName} (h : m ≠ l) (x : Line) : (s.setLine l x).line m = s.line m := by
  cases l <;> cases m <;> first | rfl | exact absurd rfl h
@[simp] theorem setLine_clk (x : Line) : s.setLine .clk x = { s with clk := x } := rfl
@[simp] theorem setLine_dio (x : Line) : s.setLine .dio x = { s with dio := x } := rfl
@[simp] theorem line_clk : s.line .clk = s.clk := rfl
@[simp] theorem line_dio : s.line .dio = s.dio := rfl

@[simp] theorem setDir_clk_clk (d : Dir) : (setDir .clk d s).clk = { s.clk with dir := d } := rfl
@[simp] theorem setDir_clk_dio (d : Dir) : (setDir .clk d s).dio = s.dio := rfl
@[simp] theorem setDir_dio_dio (d : Dir) : (setDir .dio d s).dio = { s.dio with dir := d } := rfl
@[simp] theorem setDir_dio_clk (d : Dir) : (setDir .dio d s).clk = s.clk := rfl
@[simp] theorem setDir_initDone (l : LineName) (d : Dir) : (setDir l d s).initDone = s.initDone := by cases l <;> rfl
@[simp] theorem setDir_size (l : LineName) (d : Dir) : (setDir l d s).size = s.size := by cases l <;> rfl
@[simp] theorem setDir_config (l : LineName) (d : Dir) : (setDir l d s).config = s.config := by cases l <;> rfl
@[simp] theorem setDir_seg1 (l : LineName) (d : Dir) : (setDir l d s).seg1 = s.seg1 := by cases l <;> rfl
@[simp] theorem setDir_ack (l : LineName) (d : Dir) : (setDir l d s).ack = s.ack := by cases l <;> rfl
@[simp] theorem setDir_seq (l : LineName) (d : Dir) : (setDir l d s).seq = s.seq.advance := by cases l <;> rfl
@[simp] theorem setDir_sr (l : LineName) (d : Dir) : (setDir l d s).sr = s.sr := by cases l <;> rfl
@[simp] theorem setDir_bitcnt (l : LineName) (d : Dir) : (setDir l d s).bitcnt = s.bitcnt := by cases l <;> rfl
@[simp] theorem setDir_buf (l : LineName) (d : Dir) : (setDir l d s).buf = s.buf := by cases l <;> rfl
@[simp] theorem setDir_v (l : LineName) (d : Dir) : (setDir l d s).v = s.v := by cases l <;> rfl
@[simp] theorem setDir_neg (l : LineName) (d : Dir) : (setDir l d s).neg = s.neg := by cases l <;> rfl
@[simp] theorem setDir_trace (l : LineName) (d : Dir) : (setDir l d s).trace = s.trace ++ [.setDir l d] := by cases l <;> rfl
@[simp] theorem setDir_results (l : LineName) (d : Dir) : (setDir l d s).results = s.results := by cases l <;> rfl
@[simp] theorem setDir_refusals (l : LineName) (d : Dir) : (setDir l d s).refusals = s.refusals := by cases l <;> rfl
@[simp] theorem setDir_params (l : LineName) (d : Dir) : (setDir l d s).params = s.params := by cases l <;> rfl
@[simp] theorem setDir_pending (l : LineName) (d : Dir) : (setDir l d s).pending = s.pending := by cases l <;> rfl
@[simp] theorem setDir_slave (l : LineName) (d : Dir) : (setDir l d s).slave = s.slave := by cases l <;> rfl
@[simp] theorem setDir_samples (l : LineName) (d : Dir) : (setDir l d s).samples = s.samples := by cases l <;> rfl
@[simp] theorem setDir_stream (l : LineName) (d : Dir) : (setDir l d s).stream = s.stream := by cases l <;> rfl
@[simp] theorem setDir_undefs (l : LineName) (d : Dir) : (setDir l d s).undefs = s.undefs := by cases l <;> rfl
@[simp] theorem setDir_todo (l : LineName) (d : Dir) : (setDir l d s).todo = s.todo := by cases l <;> rfl
@[simp] theorem setDir_ret (l : LineName) (d : Dir) : (setDir l d s).ret = s.ret := by cases l <;> rfl

@[simp] theorem drive_clk_clk (b : Bool) : (drive .clk b s).clk = { s.clk with latch := b } := rfl
@[simp] theorem drive_clk_dio (b : Bool) : (drive .clk b s).dio = s.dio := rfl
@[simp] theorem drive_dio_dio (b : Bool) : (drive .dio b s).dio = { s.dio with latch := b } := rfl
@[simp] theorem drive_dio_clk (b : Bool) : (drive .dio b s).clk = s.clk := rfl
@[simp] theorem drive_initDone (l : LineName) (b : Bool) : (drive l b s).initDone = s.initDone := by cases l <;> rfl
@[simp] theorem drive_size (l : LineName) (b : Bool) : (drive l b s).size = s.size := by cases l <;> rfl
@[simp] theorem drive_config (l : LineName) (b : Bool) : (drive l b s).config = s.config := by cases l <;> rfl
@[simp] theorem drive_seg1 (l : LineName) (b : Bool) : (drive l b s).seg1 = s.seg1 := by cases l <;> rfl
@[simp] theorem drive_ack (l : LineName) (b : Bool) : (drive l b s).ack = s.ack := by cases l <;> rfl
@[simp] theorem drive_seq (l : LineName) (b : Bool) : (drive l b s).seq = s.seq.advance := by cases l <;> rfl
@[simp] theorem drive_sr (l : LineName) (b : Bool) : (drive l b s).sr = s.sr := by cases l <;> rfl
@[simp] theorem drive_bitcnt (l : LineName) (b : Bool) : (drive l b s).bitcnt = s.bitcnt := by cases l <;> rfl
@[simp] theorem drive_buf (l : LineName) (b : Bool) : (drive l b s).buf = s.buf := by cases l <;> rfl
@[simp] theorem drive_v (l : LineName) (b : Bool) : (drive l b s).v = s.v := by cases l <;> rfl
@[simp] theorem drive_neg (l : LineName) (b : Bool) : (drive l b s).neg = s.neg := by cases l <;> rfl
@[simp] theorem drive_trace (l : LineName) (b : Bool) : (drive l b s).trace = s.trace ++ [.drive l b] := by cases l <;> rfl
@[simp] theorem drive_results (l : LineName) (b : Bool) : (drive l b s).results = s.results := by cases l <;> rfl
@[simp] theorem drive_refusals (l : LineName) (b : Bool) : (drive l b s).refusals = s.refusals := by cases l <;> rfl
@[simp] theorem drive_params (l : LineName) (b : Bool) : (drive l b s).params = s.params := by cases l <;> rfl
@[simp] theorem drive_pending (l : LineName) (b : Bool) : (drive l b s).pending = s.pending := by cases l <;> rfl
@[simp] theorem drive_slave (l : LineName) (b : Bool) : (drive l b s).slave = s.slave := by cases l <;> rfl
@[simp] theorem drive_samples (l : LineName) (b : Bool) : (drive l b s).samples = s.samples := by cases l <;> rfl
@[simp] theorem drive_stream (l : LineName) (b : Bool) : (drive l b s).stream = s.stream := by cases l <;> rfl
@[simp] theorem drive_undefs (l : LineName) (b : Bool) : (drive l b s).undefs = s.undefs := by cases l <;> rfl
@[simp] theorem drive_todo (l : LineName) (b : Bool) : (drive l b s).todo = s.todo := by cases l <;> rfl
@[simp] theorem drive_ret (l : LineName) (b : Bool) : (drive l b s).ret = s.ret := by cases l <;> rfl

end Sys2Proof.Machine
end

