-- ==== Sys2Proof/Laws/Run.lean ====
section
/-! SUPPORT. What each shared sequence does, said once: runs of micro-steps append, and START, WRITE_BYTE, STOP, SEND,
SEGS and a pass over the positions each have one lemma that gives the whole state after them. The event lists are those of
Safety.lean, written from the spec's listings. -/

namespace Sys2Proof.Machine

/-! ### Runs and positions -/

theorem run_append (ms ns : List Micro) (s : State) : run (ms ++ ns) s = run ns (run ms s) := by
  induction ms generalizing s with
  | nil => rfl
  | cons m ms ih => exact ih (micro m s)

theorem run_cons (m : Micro) (ms : List Micro) (s : State) : run (m :: ms) s = run ms (micro m s) := rfl

@[simp] theorem plus_zero (q : Seq) : q.plus 0 = q := by cases q <;> rfl

theorem advance_eq_plus (q : Seq) : q.advance = q.plus 1 := by cases q <;> rfl

@[simp] theorem plus_plus (q : Seq) (m n : Nat) : (q.plus m).plus n = q.plus (m + n) := by
  cases q <;> simp [Seq.plus, Nat.add_assoc]

@[simp] theorem plus_idle (n : Nat) : Seq.idle.plus n = .idle := rfl

@[simp] theorem plus_busy (op : Instr) (k n : Nat) : (Seq.busy op k).plus n = .busy op (k + n) := rfl

/-! ### Draws -/

theorem consumeDraws_eq (n : Nat) (s : State) :
    consumeDraws n s = { s with slave := s.slave.drop n, samples := s.samples + n } := by
  induction n generalizing s with
  | zero => rfl
  | succ n ih => simp [consumeDraws, ih, State.consumeDraw, Nat.add_comm 1 n, Nat.add_assoc]

theorem draws_length (n : Nat) (s : State) : (draws n s).length = n := by
  induction n generalizing s with
  | zero => rfl
  | succ n ih => simp [draws, ih]

/-- The draws depend on nothing but what the environment holds. -/
theorem draws_congr (n : Nat) {s t : State} (h1 : s.slave = t.slave) (h2 : s.samples = t.samples)
    (h3 : s.stream = t.stream) : draws n s = draws n t := by
  induction n generalizing s t with
  | zero => rfl
  | succ n ih =>
    have : draw s = draw t := by simp [draw, h1, h2, h3]
    simp [draws, this]
    exact ih (by simp [h1]) (by simp [h2]) (by simp [h3])

theorem draws_add (m n : Nat) (s : State) : draws (m + n) s = draws m s ++ draws n (consumeDraws m s) := by
  induction m generalizing s with
  | zero => simp [draws, consumeDraws]
  | succ m ih => simp [Nat.succ_add, draws, ih, consumeDraws]

/-! ### START, WRITE_BYTE, STOP -/

theorem run_startSteps (s : State) :
    run startSteps s =
      { s with clk := ⟨s.clk.dir, true⟩, dio := ⟨s.dio.dir, false⟩,
               trace := s.trace ++ startEvents, seq := s.seq.plus 4 } := by
  simp [run, startSteps, micro, drive, waitUnit, emit, startEvents, advance_eq_plus]

theorem run_stopSteps (s : State) :
    run stopSteps s =
      { s with clk := ⟨s.clk.dir, true⟩, dio := ⟨s.dio.dir, true⟩,
               trace := s.trace ++ stopEvents, seq := s.seq.plus 7 } := by
  simp [run, stopSteps, micro, drive, waitUnit, emit, stopEvents, advance_eq_plus]

theorem run_setupSteps (s : State) :
    run setupSteps s =
      { s with clk := ⟨.output, false⟩, dio := ⟨.output, false⟩,
               trace := s.trace ++ setupEvents, seq := s.seq.plus 4 } := by
  simp [run, setupSteps, micro, drive, setDir, emit, setupEvents, advance_eq_plus]

theorem run_bitSteps (i : Fin 8) (s : State) :
    run (bitSteps i) s =
      { s with clk := ⟨s.clk.dir, true⟩, dio := ⟨s.dio.dir, s.sr.getLsbD 0⟩, sr := s.sr >>> 1, bitcnt := i.succ,
               trace := s.trace ++ bitEvents (s.sr.getLsbD 0), seq := s.seq.plus 5 } := by
  simp [run, bitSteps, micro, drive, driveBit, shiftSr, waitUnit, emit, bitEvents, advance_eq_plus]

theorem run_dataSteps (s : State) :
    run dataSteps s =
      { s with clk := ⟨s.clk.dir, true⟩, dio := ⟨s.dio.dir, s.sr.getLsbD 7⟩, sr := s.sr >>> 8, bitcnt := 8,
               trace := s.trace ++ dataEvents s.sr, seq := s.seq.plus 40 } := by
  simp [dataSteps, run_append, run_bitSteps, dataEvents, ← BitVec.shiftRight_add]

theorem run_ackSteps (s : State) :
    run ackSteps s =
      { s with clk := ⟨s.clk.dir, false⟩, dio := ⟨.output, draw s⟩, ack := draw s, ret := s.ret ++ [draw s],
               slave := s.slave.tail, samples := s.samples + 1,
               trace := s.trace ++ ackEvents (draw s), seq := s.seq.plus (ackEvents (draw s)).length } := by
  have hd : ∀ c d tr sq, draw { s with clk := c, dio := d, trace := tr, seq := sq } = draw s := fun _ _ _ _ => rfl
  cases h : draw s <;>
    simp [run, ackSteps, micro, setDir, drive, waitUnit, sampleAck, sample, ifAcked, State.consumeDraw, emit, hd, h,
      ackEvents, ackPathEvents, advance_eq_plus]

/-- WRITE_BYTE (R133): the trace, the lines (R134), ACK, the consumed draw; SR and BITCNT are left free. -/
theorem run_byteSteps (x : Byte) (s : State) :
    ∃ r c, run (byteSteps x) s =
      { s with clk := ⟨s.clk.dir, false⟩, dio := ⟨.output, draw s⟩, ack := draw s, ret := s.ret ++ [draw s],
               slave := s.slave.tail, samples := s.samples + 1, sr := r, bitcnt := c, undefs := s.undefs + 1,
               trace := s.trace ++ byteEvents x (draw s), seq := s.seq.plus (byteEvents x (draw s)).length } := by
  have hd : ∀ c d tr sq r b, draw { s with clk := c, dio := d, trace := tr, seq := sq, sr := r, bitcnt := b } = draw s :=
    fun _ _ _ _ _ _ => rfl
  have h40 : (dataEvents x).length = 40 := rfl
  refine ⟨Config.undefSr s.stream s.undefs, Config.undefBitcnt s.stream s.undefs, ?_⟩
  simp [byteSteps, run_cons, run_append, micro, run_dataSteps, run_ackSteps, hd, byteEvents, h40, loadSr, undefSerializer, run]

/-! ### SEND -/

theorem payloadEvents_cons (x : Byte) (xs : List Byte) (a : Bool) (as : List Bool) :
    payloadEvents (x :: xs) (a :: as) = byteEvents x a ++ payloadEvents xs as := rfl

/-- The bytes of a transaction: one draw each. -/
theorem run_bytesSteps (bs : List Byte) (s : State) :
    ∃ c d a r b, run (bytesSteps bs) s =
      { s with clk := ⟨s.clk.dir, c⟩, dio := ⟨if bs = [] then s.dio.dir else .output, d⟩, ack := a,
               ret := s.ret ++ draws bs.length s,
               slave := s.slave.drop bs.length, samples := s.samples + bs.length, sr := r, bitcnt := b,
               undefs := s.undefs + bs.length,
               trace := s.trace ++ payloadEvents bs (draws bs.length s),
               seq := s.seq.plus (payloadEvents bs (draws bs.length s)).length } ∧
      a = (draws bs.length s).getLast?.getD s.ack := by
  induction bs generalizing s with
  | nil => exact ⟨s.clk.latch, s.dio.latch, s.ack, s.sr, s.bitcnt, by simp [bytesSteps, run, payloadEvents, draws], rfl⟩
  | cons x xs ih =>
    obtain ⟨r, c, h⟩ := run_byteSteps x s
    obtain ⟨c', d', a', r', b', h', ha⟩ := ih (run (byteSteps x) s)
    have hd : draws xs.length (run (byteSteps x) s) = draws xs.length s.consumeDraw :=
      draws_congr _ (by simp [h]) (by simp [h]) (by simp [h])
    rw [hd] at h' ha
    refine ⟨c', d', a', r', b', ?_, ?_⟩
    · rw [bytesSteps, run_append, h', h]
      simp [draws, payloadEvents, Nat.add_comm 1, Nat.add_assoc]
    · rw [ha, h]
      cases hx : draws xs.length s.consumeDraw <;> simp [draws, hx, List.getLast?_cons]

/-- SEND (R140): the whole frame, the idle bus after it (R137), ACK the last level sampled. -/
theorem run_sendSteps (bs : List Byte) (hb : bs ≠ []) (s : State) :
    ∃ r b, run (sendSteps bs) s =
      { s with clk := ⟨s.clk.dir, true⟩, dio := idleLine, ack := (draws bs.length s).getLast?.getD s.ack,
               ret := s.ret ++ draws bs.length s,
               slave := s.slave.drop bs.length, samples := s.samples + bs.length, sr := r, bitcnt := b,
               undefs := s.undefs + bs.length,
               trace := s.trace ++ frameEvents bs (draws bs.length s),
               seq := s.seq.plus (frameEvents bs (draws bs.length s)).length } := by
  obtain ⟨c, d, a, r, b, h, ha⟩ := run_bytesSteps bs (run startSteps s)
  have hd : draws bs.length (run startSteps s) = draws bs.length s :=
    draws_congr _ (by simp [run_startSteps]) (by simp [run_startSteps]) (by simp [run_startSteps])
  rw [hd] at h ha
  refine ⟨r, b, ?_⟩
  rw [sendSteps, run_append, run_append, h, run_stopSteps, ha, run_startSteps]
  simp [frameEvents, hb, idleLine, startEvents, stopEvents]
  congr 1
  omega

/-! ### Several transactions -/

/-- The micro-steps of transactions one after the other. -/
def framesSteps (ts : List (List Byte)) : List Micro := ts.flatMap sendSteps

theorem framesSteps_append (ts us : List (List Byte)) : framesSteps (ts ++ us) = framesSteps ts ++ framesSteps us := by
  simp [framesSteps]

theorem configSteps_eq (p : Params) (c : Byte) : configSteps p c = framesSteps [[displayCommand p c]] := by
  simp [configSteps, framesSteps]

theorem segsSteps_eq (p : Params) (position x : Byte) : segsSteps p position x = framesSteps (segs p position x) := by
  simp [segsSteps, framesSteps, segs]

theorem byteCount_cons (t : List Byte) (ts : List (List Byte)) : byteCount (t :: ts) = t.length + byteCount ts := by
  simp [byteCount]

theorem byteCount_append (ts us : List (List Byte)) : byteCount (ts ++ us) = byteCount ts + byteCount us := by
  simp [byteCount]

/-- The frames of transactions, and then those of more transactions with their own levels. -/
theorem framesEvents_append (ts us : List (List Byte)) (as bs : List Bool) (h : as.length = byteCount ts) :
    framesEvents (ts ++ us) (as ++ bs) = framesEvents ts as ++ framesEvents us bs := by
  induction ts generalizing as with
  | nil =>
    obtain rfl : as = [] := List.length_eq_zero_iff.mp h
    rfl
  | cons t ts ih =>
    rw [byteCount_cons] at h
    have hl : t.length ≤ as.length := by omega
    simp [framesEvents, List.take_append_of_le_length hl, List.drop_append_of_le_length hl,
      ih (as.drop t.length) (by simp; omega)]

/-- Transactions one after the other: their frames in order, one draw a byte, the idle bus at the end. -/
theorem run_framesSteps (ts : List (List Byte)) (hts : ∀ t ∈ ts, t ≠ []) (s : State) :
    ∃ r b, run (framesSteps ts) s =
      { s with clk := if ts = [] then s.clk else ⟨s.clk.dir, true⟩, dio := if ts = [] then s.dio else idleLine,
               ack := (draws (byteCount ts) s).getLast?.getD s.ack,
               ret := s.ret ++ draws (byteCount ts) s,
               slave := s.slave.drop (byteCount ts), samples := s.samples + byteCount ts, sr := r, bitcnt := b,
               undefs := s.undefs + byteCount ts,
               trace := s.trace ++ framesEvents ts (draws (byteCount ts) s),
               seq := s.seq.plus (framesEvents ts (draws (byteCount ts) s)).length } := by
  induction ts generalizing s with
  | nil => exact ⟨s.sr, s.bitcnt, by simp [framesSteps, run, byteCount, draws, framesEvents]⟩
  | cons t ts ih =>
    have ht : t ≠ [] := hts t (by simp)
    obtain ⟨r, b, h⟩ := run_sendSteps t ht s
    obtain ⟨r', b', h'⟩ := ih (fun u hu => hts u (by simp [hu])) (run (sendSteps t) s)
    have hd : draws (byteCount ts) (run (sendSteps t) s) = draws (byteCount ts) (consumeDraws t.length s) :=
      draws_congr _ (by simp [h, consumeDraws_eq]) (by simp [h, consumeDraws_eq])
        (by simp [h, consumeDraws_eq])
    have hr : run (framesSteps (t :: ts)) s = run (framesSteps ts) (run (sendSteps t) s) := by
      simp [framesSteps, run_append]
    have ha : (draws (byteCount (t :: ts)) s) = draws t.length s ++ draws (byteCount ts) (consumeDraws t.length s) := by
      rw [byteCount_cons, draws_add]
    have hlast : ((draws t.length s ++ draws (byteCount ts) (consumeDraws t.length s)).getLast?).getD s.ack =
        ((draws (byteCount ts) (consumeDraws t.length s)).getLast?).getD ((draws t.length s).getLast?.getD s.ack) := by
      cases draws (byteCount ts) (consumeDraws t.length s) <;> simp [List.getLast?_cons]
    have hl : (draws t.length s).length = t.length := draws_length _ _
    refine ⟨r', b', ?_⟩
    rw [hr, h', hd, h, ha, hlast]
    by_cases hts' : ts = []
    · subst hts'
      simp [framesEvents, byteCount, draws, List.take_of_length_le (Nat.le_of_eq hl)]
    · simp [framesEvents, byteCount_cons, hts', List.take_left' hl, List.drop_left' hl, Nat.add_assoc, idleLine]

/-- A pass over positions is the transactions of SEGS, ascending (R200, R210). -/
theorem positionsSteps_eq (p : Params) (i : Nat) (xs : List Byte) :
    positionsSteps p i xs =
      framesSteps ((List.range xs.length).flatMap fun k => segs p (BitVec.ofNat 8 (i + k)) (xs[k]?.getD 0)) := by
  induction xs generalizing i with
  | nil => rfl
  | cons x xs ih =>
    rw [positionsSteps, ih, segsSteps_eq, ← framesSteps_append]
    congr 1
    simp [List.range_succ_eq_map, List.flatMap_map, Nat.add_comm 1, Nat.add_assoc]

end Sys2Proof.Machine
end

