-- ==== Sys2Proof/Laws/Sequencer.lean ====
section
/-! SUPPORT. What the sequencer can do, said once: a micro-step extends the trace and leaves the run's record alone, a
run of them likewise, finishing reaches IDLE, and a request at IDLE is refused or runs its sequence and retires. -/

namespace Sys2Proof.Machine

/-- What every micro-step leaves alone, and that SEQ counts the events it appends (R25, R57). -/
structure Extends (s t : State) : Prop where
  params : t.params = s.params
  pending : t.pending = s.pending
  refusals : t.refusals = s.refusals
  results : t.results = s.results
  events : ∃ es, t.trace = s.trace ++ es ∧ t.seq = s.seq.plus es.length

theorem Extends.refl (s : State) : Extends s s := ⟨rfl, rfl, rfl, rfl, [], by simp, by simp⟩

theorem Extends.trans {s t u : State} (h : Extends s t) (k : Extends t u) : Extends s u := by
  obtain ⟨h1, h2, h3, h4, es, h5, h6⟩ := h
  obtain ⟨k1, k2, k3, k4, fs, k5, k6⟩ := k
  refine ⟨k1.trans h1, k2.trans h2, k3.trans h3, k4.trans h4, es ++ fs, ?_, ?_⟩
  · simp [k5, h5]
  · simp [k6, h6]

theorem micro_extends (m : Micro) (s : State) : Extends s (micro m s) := by
  cases m with
  | setDir l d => exact ⟨by simp [micro], by simp [micro], by simp [micro], by simp [micro], [.setDir l d], by simp [micro, advance_eq_plus]⟩
  | drive l b => exact ⟨by simp [micro], by simp [micro], by simp [micro], by simp [micro], [.drive l b], by simp [micro, advance_eq_plus]⟩
  | wait => exact ⟨rfl, rfl, rfl, rfl, [.wait], by simp [micro, advance_eq_plus]⟩
  | sample l => exact ⟨rfl, rfl, rfl, rfl, [.sample l (draw s)], by simp [micro, advance_eq_plus]⟩
  | sampleAck => exact ⟨rfl, rfl, rfl, rfl, [.sample .dio (draw s)], by simp [micro, advance_eq_plus]⟩
  | ackOutput =>
    cases h : s.ack
    · exact ⟨by simp [micro, ifAcked, h], by simp [micro, ifAcked, h], by simp [micro, ifAcked, h],
        by simp [micro, ifAcked, h], [.setDir .dio .output], by simp [micro, ifAcked, h, advance_eq_plus]⟩
    · simp only [micro, ifAcked, h, if_true]; exact .refl s
  | ackLow =>
    cases h : s.ack
    · exact ⟨by simp [micro, ifAcked, h], by simp [micro, ifAcked, h], by simp [micro, ifAcked, h],
        by simp [micro, ifAcked, h], [.drive .dio false], by simp [micro, ifAcked, h, advance_eq_plus]⟩
    · simp only [micro, ifAcked, h, if_true]; exact .refl s
  | driveBit =>
    exact ⟨rfl, rfl, rfl, rfl, [.drive .dio (s.sr.getLsbD 0)], by simp [micro, driveBit, advance_eq_plus]⟩
  | loadSr x => exact ⟨rfl, rfl, rfl, rfl, [], by simp [micro]⟩
  | shiftSr i => exact ⟨rfl, rfl, rfl, rfl, [], by simp [micro]⟩
  | endByte => exact ⟨rfl, rfl, rfl, rfl, [], by simp [micro]⟩
  | setConfig c => exact ⟨rfl, rfl, rfl, rfl, [], by simp [micro]⟩
  | setSize n => exact ⟨rfl, rfl, rfl, rfl, [], by simp [micro]⟩
  | setSeg1 x => exact ⟨rfl, rfl, rfl, rfl, [], by simp [micro]⟩
  | setInit => exact ⟨rfl, rfl, rfl, rfl, [], by simp [micro]⟩
  | setNumber r => exact ⟨rfl, rfl, rfl, rfl, [], by simp [micro]⟩
  | endNumber => exact ⟨rfl, rfl, rfl, rfl, [], by simp [micro]⟩

theorem run_extends (ms : List Micro) (s : State) : Extends s (run ms s) := by
  induction ms generalizing s with
  | nil => exact .refl s
  | cons m ms ih => exact (micro_extends m s).trans (ih (micro m s))

/-- No micro-step looks at what is still to do. -/
theorem micro_todo (m : Micro) (s : State) (t : List Micro) :
    micro m { s with todo := t } = { micro m s with todo := t } := by
  cases m with
  | setDir l d => cases l <;> rfl
  | drive l b => cases l <;> rfl
  | ackOutput => cases h : s.ack <;> simp [micro, ifAcked, h, setDir, emit, State.setLine, State.line]
  | ackLow => cases h : s.ack <;> simp [micro, ifAcked, h, drive, emit, State.setLine, State.line]
  | sampleAck => rfl
  | sample l => rfl
  | wait => rfl
  | driveBit => rfl
  | loadSr x => rfl
  | shiftSr i => rfl
  | endByte => rfl
  | setConfig c => rfl
  | setSize n => rfl
  | setSeg1 x => rfl
  | setInit => rfl
  | setNumber r => rfl
  | endNumber => rfl

theorem run_todo (ms : List Micro) (s : State) (t : List Micro) :
    run ms { s with todo := t } = { run ms s with todo := t } := by
  induction ms generalizing s with
  | nil => rfl
  | cons m ms ih => rw [run_cons, micro_todo, ih, run_cons]

/-! ### Finishing and requests -/

theorem retire_busy {s : State} {op : Instr} {k : Nat} (h : s.seq = .busy op k) :
    retire s =
      { s with seq := .idle, todo := [],
               results := if op.isRequest && s.params.ackExpose then s.results ++ [s.ret] else s.results } := by
  simp [retire, h]

theorem finish_idle {s : State} (h : s.seq = .idle) : finish s = s := by simp [finish, h]

theorem finish_busy {s : State} {op : Instr} {k : Nat} (h : s.seq = .busy op k) :
    finish s = retire (run s.todo { s with todo := [] }) := by simp [finish, h]

/-- Finishing always reaches IDLE (R25, R70). -/
theorem finish_seq (s : State) : (finish s).seq = .idle := by
  cases h : s.seq with
  | idle => rw [finish_idle h, h]
  | busy op k =>
    obtain ⟨_, _, _, _, es, _, hs⟩ := run_extends s.todo { s with todo := [] }
    rw [finish_busy h, retire_busy (op := op) (k := k + es.length) (by simpa [h] using hs)]

/-- A request whose check fails: nothing but the mark (R232). -/
theorem request_refused {op : Instr} {check : State → Option RefuseReason} {prog : State → List Micro} {s : State}
    {why : RefuseReason} (hs : s.seq = .idle) (hc : check s = some why) :
    request op check prog s = { s with refusals := s.refusals ++ [why] } := by
  simp [request, finish_idle hs, hc, refuse]

/-- A request that is accepted: its sequence runs to completion from the operation's first event, and its acks are
yielded (R160, R161). -/
theorem request_accepted {op : Instr} {check : State → Option RefuseReason} {prog : State → List Micro} {s : State}
    (hop : op.isRequest = true) (hs : s.seq = .idle) (hc : check s = none) :
    request op check prog s =
      { run (prog s) { s with seq := .busy op 0, todo := [], ret := [] } with
        seq := .idle, todo := [],
        results := yields s (run (prog s) { s with seq := .busy op 0, todo := [], ret := [] }).ret } := by
  obtain ⟨hp, _, _, hr, es, _, hq⟩ := run_extends (prog s) { s with seq := .busy op 0, todo := [], ret := [] }
  have hq' : (run (prog s) { s with seq := .busy op 0, todo := [], ret := [] }).seq = .busy op es.length := by
    simpa using hq
  have hf : finish (accept op (prog s) s) =
      retire (run (prog s) { s with seq := .busy op 0, todo := [], ret := [] }) := finish_busy rfl
  rw [request, finish_idle hs, hc]
  simp only [hf, retire_busy hq', hop, hp, hr, yields, Bool.true_and]

/-- A request while an operation is in progress is the request at IDLE (R25, R96). -/
theorem request_waits (op : Instr) (check : State → Option RefuseReason) (prog : State → List Micro) (s : State) :
    request op check prog s = request op check prog (finish s) := by
  simp [request, finish_idle (finish_seq s)]

end Sys2Proof.Machine
end

