-- ==== Sys2Proof/Laws/Requests.lean ====
section
/-! SUPPORT. What an accepted request does, said once for each shape of sequence: transactions alone, and transactions
after one register transfer. In each the state after is `transmitted` (Safety.lean) with the register written. -/

namespace Sys2Proof.Machine

/-- One transaction's events, out of those of several. -/
theorem framesEvents_single (t : List Byte) (acks : List Bool) (h : acks.length = t.length) :
    framesEvents [t] acks = frameEvents t acks := by
  simp [framesEvents, List.take_of_length_le (Nat.le_of_eq h)]

/-- The draws as an accepted operation sees them are those of the state it was accepted in. -/
theorem draws_accepted (n : Nat) (s : State) (q : Seq) :
    draws n { s with seq := q, todo := [], ret := [] } = draws n s := draws_congr _ rfl rfl rfl

/-- An operation that only sends transactions (R94, R160). -/
theorem request_sends {op : Instr} {check : State → Option RefuseReason} {prog : State → List Micro} {s : State}
    {ts : List (List Byte)} (hop : op.isRequest = true) (hs : s.seq = .idle) (hc : check s = none)
    (hne : ts ≠ []) (hts : ∀ t ∈ ts, t ≠ []) (hp : prog s = framesSteps ts) :
    ∃ t, request op check prog s = t ∧
      t = { transmitted ts s t with results := yields s (draws (byteCount ts) s), todo := [] } := by
  refine ⟨_, rfl, ?_⟩
  rw [request_accepted hop hs hc, hp]
  obtain ⟨r, q, h⟩ := run_framesSteps ts hts { s with seq := .busy op 0, todo := [], ret := [] }
  rw [h, draws_accepted]
  simp [transmitted, hs, hne]

/-- An operation that writes CONFIG and sends transactions (R164, R165). -/
theorem request_sets_config {op : Instr} {check : State → Option RefuseReason} {prog : State → List Micro} {s : State}
    {ts : List (List Byte)} {c : Byte} (hop : op.isRequest = true) (hs : s.seq = .idle) (hc : check s = none)
    (hne : ts ≠ []) (hts : ∀ t ∈ ts, t ≠ []) (hp : prog s = .setConfig c :: framesSteps ts) :
    ∃ t, request op check prog s = t ∧
      t = { transmitted ts s t with config := c, results := yields s (draws (byteCount ts) s), todo := [] } := by
  refine ⟨_, rfl, ?_⟩
  rw [request_accepted hop hs hc, hp, run_cons]
  obtain ⟨r, q, h⟩ := run_framesSteps ts hts (micro (.setConfig c) { s with seq := .busy op 0, todo := [], ret := [] })
  have hd : draws (byteCount ts) (micro (.setConfig c) { s with seq := .busy op 0, todo := [], ret := [] }) =
    draws (byteCount ts) s := draws_congr _ rfl rfl rfl
  rw [h, hd]
  simp [micro, transmitted, hs, hne]

/-- An operation that writes SEG1 and sends transactions (R190, R195, R210). -/
theorem request_sets_seg1 {op : Instr} {check : State → Option RefuseReason} {prog : State → List Micro} {s : State}
    {ts : List (List Byte)} {x : Byte} (hop : op.isRequest = true) (hs : s.seq = .idle) (hc : check s = none)
    (hne : ts ≠ []) (hts : ∀ t ∈ ts, t ≠ []) (hp : prog s = .setSeg1 x :: framesSteps ts) :
    ∃ t, request op check prog s = t ∧
      t = { transmitted ts s t with seg1 := x, results := yields s (draws (byteCount ts) s), todo := [] } := by
  refine ⟨_, rfl, ?_⟩
  rw [request_accepted hop hs hc, hp, run_cons]
  obtain ⟨r, q, h⟩ := run_framesSteps ts hts (micro (.setSeg1 x) { s with seq := .busy op 0, todo := [], ret := [] })
  have hd : draws (byteCount ts) (micro (.setSeg1 x) { s with seq := .busy op 0, todo := [], ret := [] }) =
    draws (byteCount ts) s := draws_congr _ rfl rfl rfl
  rw [h, hd]
  simp [micro, transmitted, hs, hne]

/-- An operation that renders into BUF, V and NEG, sends transactions, and leaves the three undefined (R31, R200). -/
theorem request_sets_number {op : Instr} {check : State → Option RefuseReason} {prog : State → List Micro} {s : State}
    {ts : List (List Byte)} {g : NumRegs} (hop : op.isRequest = true) (hs : s.seq = .idle) (hc : check s = none)
    (hne : ts ≠ []) (hts : ∀ t ∈ ts, t ≠ []) (hp : prog s = .setNumber g :: (framesSteps ts ++ [.endNumber])) :
    ∃ t, request op check prog s = t ∧
      t = { transmitted ts s t with
            buf := t.buf, v := t.v, neg := t.neg, results := yields s (draws (byteCount ts) s), todo := [] } := by
  refine ⟨_, rfl, ?_⟩
  rw [request_accepted hop hs hc, hp, run_cons, run_append]
  obtain ⟨r, q, h⟩ := run_framesSteps ts hts (micro (.setNumber g) { s with seq := .busy op 0, todo := [], ret := [] })
  have hd : draws (byteCount ts) (micro (.setNumber g) { s with seq := .busy op 0, todo := [], ret := [] }) =
    draws (byteCount ts) s := draws_congr _ rfl rfl rfl
  rw [h, hd]
  simp [run, micro, transmitted, hs, hne, undefNumber]

/-- INIT's shape (R163): the line set-up, CONFIG written and sent, SIZE, SEG1 and INIT written. -/
theorem request_initializes {op : Instr} {check : State → Option RefuseReason} {prog : State → List Micro} {s : State}
    {c n : Byte} (hop : op.isRequest = true) (hs : s.seq = .idle) (hc : check s = none)
    (hp : prog s = initSteps s.params c n) :
    ∃ t, request op check prog s = t ∧
      t = { transmitted [[displayCommand s.params c]]
              { s with clk := ⟨.output, false⟩, dio := ⟨.output, false⟩, trace := s.trace ++ setupEvents } t with
            config := c, size := n.toNat, seg1 := 0x00, initDone := true,
            results := yields s (draws 1 s), todo := [] } := by
  refine ⟨_, rfl, ?_⟩
  rw [request_accepted hop hs hc, hp, initSteps, run_append, run_setupSteps, run_cons, run_append, configSteps_eq]
  obtain ⟨r, q, h⟩ := run_framesSteps [[displayCommand s.params c]] (by simp)
    (micro (.setConfig c)
      { s with clk := ⟨.output, false⟩, dio := ⟨.output, false⟩, trace := s.trace ++ setupEvents,
               seq := Seq.plus (.busy op 0) 4, todo := [], ret := [] })
  have hd : draws (byteCount [[displayCommand s.params c]]) (micro (.setConfig c)
      { s with clk := ⟨.output, false⟩, dio := ⟨.output, false⟩, trace := s.trace ++ setupEvents,
               seq := Seq.plus (.busy op 0) 4, todo := [], ret := [] }) = draws 1 s := draws_congr _ rfl rfl rfl
  have he : ∀ k : Seq,
      draws 1 { s with
        clk := ⟨.output, false⟩, dio := ⟨.output, false⟩, trace := s.trace ++ setupEvents, seq := k } = draws 1 s :=
    fun _ => draws_congr _ rfl rfl rfl
  rw [hd] at h
  simp only at h ⊢
  rw [h]
  simp [run, micro, transmitted, byteCount, he, hs]

/-! ### The transactions of a pass over the positions -/

theorem segs_nonempty (p : Params) (position x : Byte) : ∀ t ∈ segs p position x, t ≠ [] := by
  simp [segs]

theorem segsUpTo_nonempty (p : Params) (n : Nat) (f : Nat → Byte) : ∀ t ∈ segsUpTo p n f, t ≠ [] := by
  intro t ht
  obtain ⟨i, _, hi⟩ := List.mem_flatMap.mp ht
  exact segs_nonempty p _ _ t hi

theorem segsUpTo_ne_nil (p : Params) {n : Nat} (hn : 1 ≤ n) (f : Nat → Byte) : segsUpTo p n f ≠ [] := by
  cases n with
  | zero => omega
  | succ n => simp [segsUpTo, List.range_succ_eq_map, segs]

theorem byteCount_segs (p : Params) (position x : Byte) : byteCount (segs p position x) = 3 := rfl

theorem byteCount_segsUpTo (p : Params) (n : Nat) (f : Nat → Byte) : byteCount (segsUpTo p n f) = 3 * n := by
  induction n with
  | zero => rfl
  | succ n ih =>
    have : segsUpTo p (n + 1) f = segsUpTo p n f ++ segs p (BitVec.ofNat 8 n) (f n) := by
      simp [segsUpTo, List.range_succ]
    rw [this, byteCount_append, ih, byteCount_segs]
    omega

/-- A pass over the positions, as the transactions of SEGS with the pattern of each position. -/
theorem positionsSteps_segsUpTo (p : Params) (xs : List Byte) (f : Nat → Byte) (hf : ∀ i, (h : i < xs.length) → xs[i] = f i) :
    positionsSteps p 0 xs = framesSteps (segsUpTo p xs.length f) := by
  rw [positionsSteps_eq, segsUpTo]
  congr 1
  apply List.flatMap_congr
  intro i hi
  have hi' : i < xs.length := by simpa using hi
  simp [hi', hf i hi']

end Sys2Proof.Machine
end

