-- ==== Sys2Proof/Laws/Number.lean ====
section
/-! SUPPORT. The loops of DISPLAY_NUMBER against their closed form: what they leave in BUF[0..n-1] is the pattern of each
position (R200). -/

namespace Sys2Proof.Machine

/-- The pattern of a digit of weight 10^k of a magnitude, blank where a leading zero is suppressed (R200). -/
def weightPattern (p : Params) (leadingZero : Bool) (v k : Nat) : Byte :=
  if v / 10 ^ k = 0 ∧ leadingZero = false then Config.blank else segOf p (v / 10 ^ k % 10)

theorem digitLoop_getElem (p : Params) (lz : Bool) (first : Nat) (k : Nat) (hk : k ≤ 4) (r : NumRegs) (i : Nat) :
    (digitLoop p lz first k r).buf[i]? =
      if first ≤ i ∧ i < k then some (weightPattern p lz r.v (k - 1 - i)) else r.buf[i]? := by
  induction k generalizing r with
  | zero => simp [digitLoop]
  | succ k ih =>
    rw [digitLoop]
    by_cases hf : k < first
    · have : ¬ (first ≤ i ∧ i < k + 1) := by omega
      rw [if_pos hf, if_neg this]
    · rw [if_neg hf, ih (by omega)]
      by_cases hi : i = k
      · subst hi
        have h4 : i < 4 := by omega
        have h1 : first ≤ i ∧ i < i + 1 := by omega
        rw [if_neg (by omega), if_pos h1]
        simp [weightPattern, h4]
      · by_cases hc : first ≤ i ∧ i < k
        · have h1 : first ≤ i ∧ i < k + 1 := by omega
          have h2 : k + 1 - 1 - i = (k - 1 - i) + 1 := by omega
          rw [if_pos hc, if_pos h1, h2]
          simp [weightPattern, Nat.div_div_eq_div_mul, Nat.pow_succ, Nat.mul_comm]
        · have h1 : ¬ (first ≤ i ∧ i < k + 1) := by omega
          rw [if_neg hc, if_neg h1]
          simp [Ne.symm hi]

theorem blankLoop_getElem (k : Nat) (hk : k ≤ 4) (r : NumRegs) (i : Nat) :
    (blankLoop k r).buf[i]? = if i < k then some Config.blank else r.buf[i]? := by
  induction k generalizing r with
  | zero => simp [blankLoop]
  | succ k ih =>
    rw [blankLoop, ih (by omega)]
    by_cases hi : i = k
    · subst hi
      have h4 : i < 4 := by omega
      simp [h4]
    · by_cases hc : i < k
      · simp [hc, Nat.lt_succ_of_lt hc]
      · have : ¬ i < k + 1 := by omega
        simp [hc, this, Ne.symm hi]

/-- What DISPLAY_NUMBER leaves in BUF[0..n-1] before the positions are written (R200). -/
theorem renderNumber_getElem (p : Params) (n : Nat) (hn : n ≤ 4) (value : Int) (lz : Bool) (dot : Nat) (r : NumRegs)
    (i : Nat) (hi : i < n) :
    (renderNumber p n value lz dot r).buf[i]? = some (numberPattern p n value lz dot i) := by
  by_cases hz : value = 0 ∧ lz = false
  · cases n with
    | zero => omega
    | succ last =>
      rw [renderNumber, if_pos hz, renderZero, numberPattern, if_pos hz]
      by_cases hl : i = last
      · subst hl
        have h4 : i < 4 := by omega
        simp [h4]
      · have hil : i < last := by omega
        simp [Ne.symm hl, hl, blankLoop_getElem last (by omega), hil]
  · have hdigits : ∀ q : Vector Byte 4, (value < 0 → q[0]? = some p.minus) →
        (digitLoop p lz (if decide (value < 0) = true then 1 else 0) n ⟨q, value.natAbs, decide (value < 0)⟩).buf[i]? =
          some (digitPattern p n value lz i) := by
      intro q hq
      rw [digitLoop_getElem p lz _ n hn, digitPattern]
      by_cases hneg : value < 0
      · by_cases h0 : i = 0
        · subst h0
          rw [if_neg (by simp [hneg]), if_pos ⟨hneg, rfl⟩]
          exact hq hneg
        · have h1 : 1 ≤ i ∧ i < n := by omega
          simp [hneg, h0, h1, weightPattern]
      · simp [hneg, hi, weightPattern]
    have hd := hdigits (if decide (value < 0) = true then r.buf.setIfInBounds 0 p.minus else r.buf) (by
      intro h; simp [h])
    rw [renderNumber, if_neg hz, renderDigits, numberPattern, if_neg hz, renderDot]
    revert hd
    generalize (digitLoop p lz (if decide (value < 0) = true then 1 else 0) n
      ⟨if decide (value < 0) = true then r.buf.setIfInBounds 0 p.minus else r.buf, value.natAbs,
        decide (value < 0)⟩) = g
    intro hd
    by_cases hdot : dot ≠ 0 ∧ dot < n
    · rw [if_pos hdot]
      by_cases hid : i = dot
      · subst hid
        have h4 : i < 4 := by omega
        rw [if_pos ⟨rfl, hdot.1⟩]
        have hg : g.buf[i] = digitPattern p n value lz i := by simpa [h4] using hd
        simp [hg, h4]
      · simp [Ne.symm hid, hid, hd]
    · rw [if_neg hdot]
      have : ¬ (i = dot ∧ dot ≠ 0) := by omega
      rw [if_neg this, hd]

end Sys2Proof.Machine
end

