-- ==== Sys2Proof/Laws/Observe.lean ====
section
/-! SUPPORT. What the observer of R66 makes of the events of one data bit, of one byte, of START, of STOP and of INIT's
line set-up: each said once, from any observer state the block can bring about and for all free values (log 11). -/

namespace Sys2Proof.Machine

theorem replay_append (g : Free) (o : Obs) (es fs : List Event) :
    o.replay g (es ++ fs) = (o.replay g es).replay g fs := by
  induction es generalizing o with
  | nil => rfl
  | cons e es ih => exact ih (o.event g e)

theorem observe_append (g : Free) (es fs : List Event) : observe g (es ++ fs) = (observe g es).replay g fs :=
  replay_append _ _ _ _

/-- The observer's line knowledge set to two driven outputs, `n` events later. -/
def Obs.withLines (o : Obs) (c d : Bool) (n : Nat) : Obs :=
  { o with clk := Seen.ofLine ⟨.output, c⟩, dio := Seen.ofLine ⟨.output, d⟩, clkLevel := c, dioLevel := d,
           events := o.events + n }

@[simp] theorem withLines_framed (o : Obs) (c d : Bool) (n : Nat) : (o.withLines c d n).framed = o.framed := rfl
@[simp] theorem withLines_bits (o : Obs) (c d : Bool) (n : Nat) : (o.withLines c d n).bits = o.bits := rfl
@[simp] theorem withLines_bytes (o : Obs) (c d : Bool) (n : Nat) : (o.withLines c d n).bytes = o.bytes := rfl
@[simp] theorem withLines_closed (o : Obs) (c d : Bool) (n : Nat) : (o.withLines c d n).closed = o.closed := rfl
@[simp] theorem withLines_starts (o : Obs) (c d : Bool) (n : Nat) : (o.withLines c d n).starts = o.starts := rfl
@[simp] theorem withLines_stops (o : Obs) (c d : Bool) (n : Nat) : (o.withLines c d n).stops = o.stops := rfl

/-- An observer that knows both lines as driven outputs with their levels. -/
theorem eq_withLines {o : Obs} {c d : Bool} (h1 : o.clk = Seen.ofLine ⟨.output, c⟩)
    (h2 : o.dio = Seen.ofLine ⟨.output, d⟩) (h3 : o.clkLevel = c) (h4 : o.dioLevel = d) : o = o.withLines c d 0 := by
  cases o
  simp only at h1 h2 h3 h4
  subst h1 h2 h3 h4
  rfl

/-- One data bit (R66): a clock that carries the level DIO was given. -/
theorem replay_bitEvents (g : Free) (o : Obs) (c d b : Bool) (n : Nat) (hf : o.framed = true) (hb : o.bits.length < 8) :
    (o.withLines c d n).replay g (bitEvents b) =
      ({ o with bits := o.bits ++ [b] } : Obs).withLines true b (n + 5) := by
  cases c <;> cases d <;> cases b <;>
    simp [Obs.replay, bitEvents, Obs.event, Obs.lines, Obs.edge, Obs.clock, Obs.withLines, Seen.ofLine, clkLevel, dioLevel,
      Level.ofBit, Level.resolve, hf, hb, Nat.add_assoc]

/-- The acknowledgment slot (R66): the ninth clock closes the byte with the sample taken before it. The ANY levels of
R54 fall while CLK is low and make no condition. -/
theorem replay_ackEvents (g : Free) (o : Obs) (c d a : Bool) (n : Nat) (hf : o.framed = true) (hb : o.bits.length = 8) :
    (o.withLines c d n).replay g (ackEvents a) =
      ({ o with
          bits := [], sampled := some a,
          bytes := o.bytes ++ [SeenByte.mk (BitVec.ofNat 8 (assemble o.bits)) (some a)] } : Obs).withLines false a
        (n + (ackEvents a).length) := by
  cases c <;> cases d <;> cases a <;>
    simp [Obs.replay, ackEvents, ackPathEvents, Obs.event, Obs.lines, Obs.edge, Obs.clock, Obs.withLines, Seen.ofLine,
      clkLevel, dioLevel, Level.ofBit, Level.resolve, hf, hb, Nat.add_assoc]

/-- Bits assembled least significant first give the byte back (R58). -/
theorem assemble_bits (x : Byte) :
    BitVec.ofNat 8 (assemble [x.getLsbD 0, x.getLsbD 1, x.getLsbD 2, x.getLsbD 3, x.getLsbD 4, x.getLsbD 5,
      x.getLsbD 6, x.getLsbD 7]) = x := by
  revert x; decide

/-- One byte (R66): the observer reads it back with its acknowledgment, inside its frame. -/
theorem replay_byteEvents (g : Free) (o : Obs) (c d : Bool) (n : Nat) (x : Byte) (a : Bool) (hf : o.framed = true)
    (hb : o.bits = []) :
    (o.withLines c d n).replay g (byteEvents x a) =
      ({ o with sampled := some a, bytes := o.bytes ++ [SeenByte.mk x (some a)] } : Obs).withLines false a
        (n + 40 + (ackEvents a).length) := by
  obtain ⟨ck, dk, cl, dl, fr, bits, sa, by', cs, st, sp, ev⟩ := o
  simp only at hf hb
  subst hf hb
  simp only [byteEvents, dataEvents, List.append_assoc, replay_append]
  iterate 8 rw [replay_bitEvents _ _ _ _ _ _ rfl (by simp)]
  rw [replay_ackEvents _ _ _ _ _ _ rfl (by simp)]
  simp only [List.nil_append, List.cons_append, assemble_bits]

/-- START (R131) from the idle bus: one start condition, and nothing else. -/
theorem replay_startEvents_idle (g : Free) (o : Obs) (n : Nat) :
    (o.withLines true true n).replay g startEvents =
      ({ o with framed := true, bits := [], bytes := [], starts := o.starts + 1 } : Obs).withLines true false (n + 4) := by
  simp [Obs.replay, startEvents, Obs.event, Obs.lines, Obs.edge, Obs.withLines, Seen.ofLine, clkLevel, dioLevel,
    Level.ofBit, Level.resolve, Nat.add_assoc]

/-- START (R131) after INIT's line set-up (R132): one start condition, and nothing else that stays. A frame that an ANY
level opened in the set-up is given up (R264). -/
theorem replay_startEvents_low (g : Free) (o : Obs) (n : Nat) :
    (o.withLines false false n).replay g startEvents =
      ({ o with framed := true, bits := [], bytes := [], starts := o.starts + 1 } : Obs).withLines true false (n + 4) := by
  cases hf : o.framed <;> by_cases hb : o.bits.length < 8 <;>
    simp [Obs.replay, startEvents, Obs.event, Obs.lines, Obs.edge, Obs.clock, Obs.withLines, Seen.ofLine, clkLevel,
      dioLevel, Level.ofBit, Level.resolve, hf, hb, Nat.add_assoc]

/-- STOP after a byte (R137, R138): one stop condition, and a clock that the frame's end discards. -/
theorem replay_stopEvents (g : Free) (o : Obs) (c d : Bool) (n : Nat) (hf : o.framed = true) (hb : o.bits = []) :
    (o.withLines c d n).replay g stopEvents =
      ({ o with
          framed := false, bits := [], bytes := [], stops := o.stops + 1,
          closed := o.closed ++ [o.bytes] } : Obs).withLines true true (n + 7) := by
  cases c <;> cases d <;>
    simp [Obs.replay, stopEvents, Obs.event, Obs.lines, Obs.edge, Obs.clock, Obs.withLines, Seen.ofLine, clkLevel,
      dioLevel, Level.ofBit, Level.resolve, hf, hb, Nat.add_assoc]

/-- INIT's line set-up (R264): two driven low lines at the end, whatever conditions the free values made before. -/
theorem observe_setupEvents (g : Free) : observe g setupEvents = (observe g setupEvents).withLines false false 0 :=
  eq_withLines (by simp [observe, Obs.replay, setupEvents, Obs.event, Obs.lines, Obs.initial, Seen.ofLine])
    (by simp [observe, Obs.replay, setupEvents, Obs.event, Obs.lines, Obs.initial, Seen.ofLine])
    (by simp [observe, Obs.replay, setupEvents, Obs.event, Obs.lines, Obs.initial, clkLevel, Level.ofBit, Level.resolve])
    (by simp [observe, Obs.replay, setupEvents, Obs.event, Obs.lines, Obs.initial, dioLevel, Level.ofBit, Level.resolve])

end Sys2Proof.Machine
end

