-- ==== Sys2Proof/Laws/PerInstr.lean ====
section
/-! SUPPORT. What the encoder says of every instruction, constructor by constructor (30_encoding.md R80, R95, R97): a
request has a request tuple, a byte kind a wire byte, a micro-operation neither. -/

namespace Sys2Proof.Laws.Requestable

/-- An instruction is a request exactly if it encodes to a tuple whose arguments are as many as its selector's, and a byte
kind exactly if it encodes to a wire byte. -/
def Statement (i : Instr) : Prop :=
  ∀ p : Params,
    (i.isRequest = true ↔ ∃ r, encode p i = some (.request r) ∧ r.args.length = arity r.sel) ∧
    (i.isWireByte = true ↔ ∃ b, encode p i = some (.wire b))

/-- A request's statement, from its tuple. -/
theorem of_request {i : Instr} {r : Request} (h : ∀ p, encode p i = some (.request r)) (ha : r.args.length = arity r.sel)
    (hr : i.isRequest = true) (hw : i.isWireByte = false) : Statement i := by
  intro p
  simp [h p, hr, hw, ha]

/-- A byte kind's statement, from its byte. -/
theorem of_wire {i : Instr} {b : Params → Byte} (h : ∀ p, encode p i = some (.wire (b p))) (hr : i.isRequest = false)
    (hw : i.isWireByte = true) : Statement i := by
  intro p
  simp [h p, hr, hw]

/-- A micro-operation's statement. -/
theorem of_none {i : Instr} (h : ∀ p, encode p i = none) (hr : i.isRequest = false) (hw : i.isWireByte = false) :
    Statement i := by
  intro p
  simp [h p, hr, hw]

theorem init (enabled : Bool) (brightness size : Byte) : Statement (.init enabled brightness size) :=
  of_request (fun _ => rfl) rfl rfl rfl

theorem setEnabled (flag : Bool) : Statement (.setEnabled flag) := of_request (fun _ => rfl) rfl rfl rfl

theorem setBrightness (level : Byte) : Statement (.setBrightness level) := of_request (fun _ => rfl) rfl rfl rfl

theorem displaySegments (position pattern : Byte) : Statement (.displaySegments position pattern) :=
  of_request (fun _ => rfl) rfl rfl rfl

theorem displayDigit (position digit : Byte) : Statement (.displayDigit position digit) :=
  of_request (fun _ => rfl) rfl rfl rfl

theorem displayColon (flag : Bool) : Statement (.displayColon flag) := of_request (fun _ => rfl) rfl rfl rfl

theorem displayNumber (value : Int) (leadingZero : Bool) (dot : Byte) :
    Statement (.displayNumber value leadingZero dot) :=
  of_request (fun _ => rfl) rfl rfl rfl

theorem clear : Statement .clear := of_request (fun _ => rfl) rfl rfl rfl

theorem reserved (low : BitVec 3) : Statement (.reserved low) :=
  of_request (r := ⟨1#1 ++ low, []⟩) (fun _ => rfl) (by revert low; decide) rfl rfl

theorem setOut (line : LineName) : Statement (.setOut line) := of_none (fun _ => rfl) rfl rfl

theorem setIn (line : LineName) : Statement (.setIn line) := of_none (fun _ => rfl) rfl rfl

theorem driveHigh (line : LineName) : Statement (.driveHigh line) := of_none (fun _ => rfl) rfl rfl

theorem driveLow (line : LineName) : Statement (.driveLow line) := of_none (fun _ => rfl) rfl rfl

theorem read (line : LineName) : Statement (.read line) := of_none (fun _ => rfl) rfl rfl

theorem wait : Statement .wait := of_none (fun _ => rfl) rfl rfl

theorem start : Statement .start := of_none (fun _ => rfl) rfl rfl

theorem writeByte (x : Byte) : Statement (.writeByte x) := of_none (fun _ => rfl) rfl rfl

theorem stop : Statement .stop := of_none (fun _ => rfl) rfl rfl

theorem send (bytes : List Byte) : Statement (.send bytes) := of_none (fun _ => rfl) rfl rfl

theorem sendConfig : Statement .sendConfig := of_none (fun _ => rfl) rfl rfl

theorem cmdSetDataMode : Statement .cmdSetDataMode := of_wire (b := dataCommand) (fun _ => rfl) rfl rfl

theorem cmdSetAddress (pp : BitVec 2) : Statement (.cmdSetAddress pp) :=
  of_wire (b := fun p => addressCommand p (pp.setWidth 8)) (fun _ => rfl) rfl rfl

theorem cmdSetDisplay (on : Bool) (bri : BitVec 3) : Statement (.cmdSetDisplay on bri) :=
  of_wire (b := fun p => displayCommand p (configByte p on (bri.setWidth 8))) (fun _ => rfl) rfl rfl

theorem dataPattern (x : Byte) : Statement (.dataPattern x) := of_wire (b := fun _ => x) (fun _ => rfl) rfl rfl

end Sys2Proof.Laws.Requestable
end

