-- ==== Sys2Proof/Machine/Assembler.lean ====
section
/-! DEFINITION. The written form of requests (30_encoding.md R93): `MNEMONIC arg1, arg2, ...`, one request a line, a
comment after `;`. It is the spec's own syntax for the programs of 95_test_vectors.md; `step` does not use it. -/

namespace Sys2Proof.Machine

/-- The kinds of argument (R92): a Boolean, an unsigned byte, the signed value of DISPLAY_NUMBER. -/
inductive ArgKind where
  | bool
  | byte
  | value
  deriving DecidableEq, Repr

/-- The mnemonics of R95, with their selectors and the kinds of their arguments in order. -/
def mnemonics : List (List Char × BitVec 4 × List ArgKind) :=
  [("INIT".toList, 0x0, [.bool, .byte, .byte]),
   ("SET_ENABLED".toList, 0x1, [.bool]),
   ("SET_BRIGHTNESS".toList, 0x2, [.byte]),
   ("DISPLAY_SEGMENTS".toList, 0x3, [.byte, .byte]),
   ("DISPLAY_DIGIT".toList, 0x4, [.byte, .byte]),
   ("DISPLAY_COLON".toList, 0x5, [.bool]),
   ("DISPLAY_NUMBER".toList, 0x6, [.value, .bool, .byte]),
   ("CLEAR".toList, 0x7, [])]

/-- Blanks between words. -/
def isBlank (c : Char) : Bool := c == ' ' || c == '\t' || c == '\r'

/-- A word without the blanks around it. -/
def trim (cs : List Char) : List Char := ((cs.dropWhile isBlank).reverse.dropWhile isBlank).reverse

/-- The parts between separators. -/
def splitAt (sep : Char) : List Char → List (List Char)
  | [] => [[]]
  | c :: cs =>
    if c = sep then [] :: splitAt sep cs
    else
      match splitAt sep cs with
      | [] => [[c]]
      | w :: ws => (c :: w) :: ws

/-- The value of a digit in bases up to sixteen. -/
def digitValue (c : Char) : Option Nat :=
  if '0' ≤ c ∧ c ≤ '9' then some (c.toNat - '0'.toNat)
  else if 'a' ≤ c ∧ c ≤ 'f' then some (c.toNat - 'a'.toNat + 10)
  else if 'A' ≤ c ∧ c ≤ 'F' then some (c.toNat - 'A'.toNat + 10)
  else none

/-- Digits of a base, the most significant first, after those read so far. -/
def readDigits (base : Nat) : Nat → List Char → Option Nat
  | acc, [] => some acc
  | acc, c :: cs =>
    match digitValue c with
    | some d => if d < base then readDigits base (acc * base + d) cs else none
    | none => none

/-- An unsigned integer, decimal or `0xNN`. -/
def readNat : List Char → Option Nat
  | [] => none
  | '0' :: 'x' :: c :: cs => readDigits 16 0 (c :: cs)
  | c :: cs => readDigits 10 0 (c :: cs)

/-- An argument of a kind (R93): a leading `-` only for the value, the words only for a Boolean. -/
def readArg (k : ArgKind) (cs : List Char) : Option Int :=
  match k, cs with
  | .value, '-' :: ds => (readNat ds).map fun n => -(n : Int)
  | .bool, cs =>
    if cs = "true".toList then some 1
    else if cs = "false".toList then some 0
    else (readNat cs).map Int.ofNat
  | _, cs => (readNat cs).map Int.ofNat

/-- The arguments of the kinds, in order. -/
def readArgs : List ArgKind → List (List Char) → Option (List Int)
  | [], [] => some []
  | k :: ks, w :: ws =>
    match readArg k (trim w), readArgs ks ws with
    | some a, some as => some (a :: as)
    | _, _ => none
  | _, _ => none

/-- The words between the commas; none where nothing is written. -/
def argWords (cs : List Char) : List (List Char) :=
  if trim cs = [] then [] else splitAt ',' cs

/-- One line: `some none` where it holds no request, `none` where it is not of the syntax. -/
def assembleLine (line : List Char) : Option (Option Request) :=
  let body := trim (line.takeWhile (· ≠ ';'))
  if body = [] then some none
  else
    let name := body.takeWhile fun c => !isBlank c
    match mnemonics.find? fun m => m.1 == name with
    | none => none
    | some (_, sel, kinds) =>
      match readArgs kinds (argWords (body.drop name.length)) with
      | none => none
      | some args => some (some ⟨sel, args⟩)

/-- The lines of a program. -/
def assembleLines : List (List Char) → Option (List Request)
  | [] => some []
  | l :: ls =>
    match assembleLine l, assembleLines ls with
    | some (some r), some rs => some (r :: rs)
    | some none, some rs => some rs
    | _, _ => none

/-- A program text: its requests in order (R93). -/
def assembleProgram (text : String) : Option (List Request) := assembleLines (splitAt '\n' text.toList)

/-- The machine with a program's requests presented to it (R93, R246). -/
def State.withProgram (s : State) (rs : List Request) : State := { s with pending := s.pending ++ rs }

end Sys2Proof.Machine
end

