-- ==== Sys2Proof/Tests/Slice0.lean ====
section
/-! SUPPORT. Tests: the well-formedness checks refuse what they must, words written out from the spec's encodings decode,
one step of each instruction against the vectors of 95_test_vectors.md, and for every statement with hypotheses a concrete
state and operands that meet them. Expected values are the spec's: each comment names the vector or rule. -/

namespace Sys2Proof.Tests

open Sys2Proof Sys2Proof.Machine

/-! ### Helpers -/

/-- The outcome is a next state of which `f` holds. -/
def answers (o : Host.Outcome State Fault Refusal) (f : State → Bool) : Bool :=
  match o with
  | .next t => f t
  | .fault _ => false
  | .refused _ => false

/-- The outcome is this refusal. -/
def stops (o : Host.Outcome State Fault Refusal) (r : Refusal) : Bool :=
  match o with
  | .next _ => false
  | .fault _ => false
  | .refused q => q == r

/-- The next state of an outcome, and the state itself where there is none. -/
def nextOr (s : State) : Host.Outcome State Fault Refusal → State
  | .next t => t
  | .fault _ => s
  | .refused _ => s

/-- A new instance whose slave acknowledges every byte a test sends. -/
def fresh : State := { State.reset with slave := List.replicate 16 false }

/-- The instance after `INIT 1, 9, 4` (L2-C2). -/
def initialized : State := nextOr fresh (exec (.init true 0x09 0x04) fresh)

/-- An idle initialized instance with an empty trace, CONFIG and SEG1 as given. -/
def ready (config seg1 : Byte) : State :=
  { fresh with clk := idleLine, dio := idleLine, initDone := true, size := 4, config := config, seg1 := seg1 }

/-- Lines as a vector of 95_test_vectors.md gives them. -/
def lines (clk dio : Line) (slave : List Bool) : State := { State.reset with clk := clk, dio := dio, slave := slave }

/-- The observer's free values, all low. -/
def allLow : Free := fun _ _ => false

/-- The values of the transactions the observer reads (R66). -/
def sent (trace : List Event) : List (List Byte) := (observe allLow trace).closed.map fun t => t.map (·.value)

/-- An observer of the idle bus. -/
def idleObs : Obs :=
  { Obs.initial allLow with
    clk := Seen.ofLine idleLine, dio := Seen.ofLine idleLine, clkLevel := true, dioLevel := true }

/-- The transactions of `trace` seen from the idle bus. -/
def sentFromIdle (trace : List Event) : List (List Byte) :=
  (idleObs.replay allLow trace).closed.map fun t => t.map (·.value)

/-! ### WellFormed: an ill-formed term for each check -/

/-- R92: the value must fit NUM_WIDTH = 16 bits; both ends of the range. -/
theorem test_wf_number_range :
    Instr.wellFormed Params.defaults (.displayNumber 32768 false 0) = false ∧
    Instr.wellFormed Params.defaults (.displayNumber (-32769) false 0) = false ∧
    Instr.wellFormed Params.defaults (.displayNumber 32767 false 0) = true ∧
    Instr.wellFormed Params.defaults (.displayNumber (-32768) false 0) = true := by decide

/-- R90: a transaction has one or two bytes. -/
theorem test_wf_send_length :
    Instr.wellFormed Params.defaults (.send []) = false ∧
    Instr.wellFormed Params.defaults (.send [0x44, 0x44, 0x44]) = false ∧
    Instr.wellFormed Params.defaults (.send [0xC1, 0xDB]) = true := by decide

/-! ### Decoding: words written out from the spec -/

/-- R95: the request tuples of program P1, P2 and P3 (95_test_vectors.md Part 3). -/
theorem test_decode_requests :
    decodeRequest Params.defaults ⟨0b0000, [1, 2, 4]⟩ = .instr (.init true 0x02 0x04) ∧
    decodeRequest Params.defaults ⟨0b0001, [1]⟩ = .instr (.setEnabled true) ∧
    decodeRequest Params.defaults ⟨0b0010, [3]⟩ = .instr (.setBrightness 0x03) ∧
    decodeRequest Params.defaults ⟨0b0011, [7, 0xFF]⟩ = .instr (.displaySegments 0x07 0xFF) ∧
    decodeRequest Params.defaults ⟨0b0100, [5, 7]⟩ = .instr (.displayDigit 0x05 0x07) ∧
    decodeRequest Params.defaults ⟨0b0101, [0]⟩ = .instr (.displayColon false) ∧
    decodeRequest Params.defaults ⟨0b0110, [-234, 0, 0]⟩ = .instr (.displayNumber (-234) false 0x00) ∧
    decodeRequest Params.defaults ⟨0b0111, []⟩ = .instr .clear := by decide

/-- R95, R96: selectors 0x8 to 0xF are reserved. -/
theorem test_decode_reserved :
    decodeRequest Params.defaults ⟨0b1000, []⟩ = .instr (.reserved 0b000) ∧
    decodeRequest Params.defaults ⟨0b1111, [1, 2]⟩ = .instr (.reserved 0b111) := by decide

/-- R92: a nonzero Boolean is true; a u8 above 255 is no argument; R95: the number of arguments. -/
theorem test_decode_arguments :
    decodeRequest Params.defaults ⟨0x1, [255]⟩ = .instr (.setEnabled true) ∧
    decodeRequest Params.defaults ⟨0x2, [256]⟩ = .rejected .range ∧
    decodeRequest Params.defaults ⟨0x2, [-1]⟩ = .rejected .range ∧
    decodeRequest Params.defaults ⟨0x2, []⟩ = .rejected .arity := by decide

/-- R81 to R83: 0100 0100 the data command, 1100 00pp an address command, 1000 abbb a display-control command. -/
theorem test_decode_wire :
    decodeWire Params.defaults false 0b01000100 = .instr .cmdSetDataMode ∧
    decodeWire Params.defaults false 0b11000010 = .instr (.cmdSetAddress 0b10) ∧
    decodeWire Params.defaults false 0b10001101 = .instr (.cmdSetDisplay true 0b101) ∧
    decodeWire Params.defaults false 0b10000111 = .instr (.cmdSetDisplay false 0b111) := by decide

/-- R91: bytes the block never emits as a command: auto-increment mode, key-scan read, addresses 4 and 5. -/
theorem test_decode_wire_rejects :
    decodeWire Params.defaults false 0x40 = .rejected .notEmitted ∧
    decodeWire Params.defaults false 0x42 = .rejected .notEmitted ∧
    decodeWire Params.defaults false 0xC4 = .rejected .notEmitted ∧
    decodeWire Params.defaults false 0x90 = .rejected .notEmitted := by decide

/-- R88, R90: after an address command every byte is a segment pattern. -/
theorem test_decode_transaction :
    decodeTransaction Params.defaults [0xC1, 0x44] = some [.cmdSetAddress 1, .dataPattern 0x44] ∧
    decodeTransaction Params.defaults [0x44] = some [.cmdSetDataMode] ∧
    decodeTransaction Params.defaults [0x8F] = some [.cmdSetDisplay true 7] ∧
    decodeTransaction Params.defaults [0xC1] = none := by decide

/-- R93: the first two lines of program P1, as text. -/
theorem test_assemble :
    assembleProgram "INIT 1, 2, 4  ; comment\nDISPLAY_NUMBER -234, 0, 0\n\nDISPLAY_SEGMENTS 6, 0x76\nCLEAR" =
      some [⟨0x0, [1, 2, 4]⟩, ⟨0x6, [-234, 0, 0]⟩, ⟨0x3, [6, 0x76]⟩, ⟨0x7, []⟩] := by decide

/-! ### Line micro-operations (L2-A) -/

/-- A1. -/
theorem test_setOut :
    answers (exec (.setOut .dio) (lines ⟨.input, false⟩ ⟨.input, true⟩ [])) (fun t =>
      t.dio == ⟨.output, true⟩ && t.clk == ⟨.input, false⟩ && t.trace == [.setDir .dio .output] &&
      dioLevel (Seen.ofLine t.dio) false == .high) = true := by decide

/-- A2. -/
theorem test_setIn :
    answers (exec (.setIn .dio) (lines ⟨.input, false⟩ ⟨.output, false⟩ [])) (fun t =>
      t.dio == ⟨.input, false⟩ && t.trace == [.setDir .dio .input] &&
      dioLevel (Seen.ofLine t.dio) false == .any) = true := by decide

/-- A3. -/
theorem test_driveHigh_dio :
    answers (exec (.driveHigh .dio) (lines ⟨.input, false⟩ ⟨.input, false⟩ [])) (fun t =>
      t.dio == ⟨.input, true⟩ && t.trace == [.drive .dio true] &&
      dioLevel (Seen.ofLine t.dio) false == .high) = true := by decide

/-- A4, and A5 that an unchanged latch still emits the event. -/
theorem test_driveHigh_clk :
    answers (exec (.driveHigh .clk) (lines ⟨.output, false⟩ ⟨.input, false⟩ [])) (fun t =>
      t.clk == ⟨.output, true⟩ && clkLevel (Seen.ofLine t.clk) == .high &&
      answers (exec (.driveHigh .clk) t) (fun u => u.clk == t.clk && u.trace.length == 2)) = true := by decide

/-- A6. -/
theorem test_driveLow :
    answers (exec (.driveLow .dio) (lines idleLine idleLine [])) (fun t =>
      t.dio == ⟨.output, false⟩ && t.clk == idleLine && t.trace == [.drive .dio false] &&
      dioLevel (Seen.ofLine t.dio) false == .low) = true := by decide

/-- A7 and A8. -/
theorem test_read :
    answers (exec (.read .dio) (lines idleLine ⟨.input, true⟩ [false, true])) (fun t =>
      t.dio == ⟨.input, true⟩ && t.trace == [.sample .dio false] && t.ret == [false] &&
      answers (exec (.read .dio) t) (fun u => u.ret == [true])) = true := by decide

/-- A9. -/
theorem test_wait :
    answers (exec .wait (lines idleLine ⟨.input, true⟩ [])) (fun t =>
      t == { lines idleLine ⟨.input, true⟩ [] with trace := [.wait] }) = true := by decide

/-! ### Framing and serializer (L2-F) -/

/-- L2-F1, with the observer's one start condition. -/
theorem test_start :
    answers (exec .start (lines ⟨.output, false⟩ ⟨.output, false⟩ [])) (fun t =>
      t.trace == [.drive .dio true, .drive .clk true, .wait, .drive .dio false] &&
      t.clk == ⟨.output, true⟩ && t.dio == ⟨.output, false⟩) = true := by decide

/-- L2-F4: 0xA5 acknowledged; the data levels 1,0,1,0,0,1,0,1 and the end of the trace. -/
theorem test_writeByte_acknowledged :
    answers (exec (.writeByte 0xA5) (lines ⟨.output, true⟩ ⟨.output, false⟩ [false])) (fun t =>
      t.trace.length == 53 && t.ack == false && t.clk == ⟨.output, false⟩ && t.dio == ⟨.output, false⟩ &&
      t.trace.take 10 == [.drive .clk false, .wait, .drive .dio true, .drive .clk true, .wait,
        .drive .clk false, .wait, .drive .dio false, .drive .clk true, .wait] &&
      t.trace.drop 35 == [.drive .clk false, .wait, .drive .dio true, .drive .clk true, .wait,
        .drive .clk false, .setDir .dio .input, .drive .dio true, .wait, .sample .dio false,
        .setDir .dio .output, .drive .dio false,
        .wait, .drive .clk true, .wait, .drive .clk false, .wait, .setDir .dio .output]) = true := by decide

/-- L2-F6: 0x44 not acknowledged. -/
theorem test_writeByte_not_acknowledged :
    answers (exec (.writeByte 0x44) (lines ⟨.output, true⟩ ⟨.output, false⟩ [true])) (fun t =>
      t.trace.length == 51 && t.ack == true && t.clk == ⟨.output, false⟩ && t.dio == ⟨.output, true⟩ &&
      t.trace.drop 40 == [.drive .clk false, .setDir .dio .input, .drive .dio true, .wait, .sample .dio true, .wait,
        .drive .clk true, .wait, .drive .clk false, .wait, .setDir .dio .output]) = true := by decide

/-- L2-F3. -/
theorem test_stop :
    answers (exec .stop (lines ⟨.output, false⟩ ⟨.output, false⟩ [])) (fun t =>
      t.trace == [.drive .clk false, .wait, .drive .dio false, .wait, .drive .clk true, .wait, .drive .dio true] &&
      t.clk == idleLine && t.dio == idleLine) = true := by decide

/-- L2-F7, `[0xC1, 0xDB]` with acks 0 and 1. -/
theorem test_send :
    answers (exec (.send [0xC1, 0xDB]) (lines idleLine idleLine [false, true])) (fun t =>
      t.trace.length == 115 && waits t.trace == 44 && clockDrives t.trace == 20 && clockRises true t.trace == 19 &&
      t.ret == [false, true] && sentFromIdle t.trace == [[0xC1, 0xDB]]) = true := by decide +kernel

/-- R162: 0x80 | CONFIG. -/
theorem test_sendConfig :
    answers (exec .sendConfig (ready 0x0B 0x00)) (fun t =>
      sentFromIdle t.trace == [[0x8B]] && t.trace.length == 64 && t.config == 0x0B) = true := by decide

/-! ### Command operations (L2-C) -/

/-- L2-C2. -/
theorem test_init :
    answers (exec (.init true 0x09 0x04) { State.reset with slave := [false] }) (fun t =>
      t.trace.length == 68 && waits t.trace == 24 && clockRises false t.trace == 11 && sent t.trace == [[0x8F]] &&
      t.config == 0x0F && t.size == 4 && t.seg1 == 0x00 && t.initDone && t.ack == false && t.clk == idleLine &&
      t.dio == idleLine && t.results == [[false]] &&
      t.trace.take 4 == [.setDir .clk .output, .setDir .dio .output, .drive .clk false, .drive .dio false]) = true := by
  decide

/-- L2-X: BadSize below and above, then ReInit. -/
theorem test_init_refused :
    answers (exec (.init true 0x01 0x00) State.reset) (fun t => t == refusedAs .badSize State.reset) = true ∧
    answers (exec (.init true 0x01 0x05) State.reset) (fun t => t == refusedAs .badSize State.reset) = true ∧
    answers (exec (.init true 0x01 0x03) (ready 0x0F 0x00)) (fun t => t.refusals == [.reInit] && t.trace == []) = true := by
  decide

/-- L2-C3. -/
theorem test_setEnabled :
    answers (exec (.setEnabled false) (ready 0x0B 0x00)) (fun t =>
      t.config == 0x03 && sentFromIdle t.trace == [[0x83]]) = true ∧
    answers (exec (.setEnabled true) (ready 0x0B 0x00)) (fun t =>
      t.config == 0x0B && sentFromIdle t.trace == [[0x8B]]) = true := by decide

/-- L2-C4. -/
theorem test_setBrightness :
    answers (exec (.setBrightness 200) (ready 0x08 0x00)) (fun t =>
      t.config == 0x0F && sentFromIdle t.trace == [[0x8F]]) = true ∧
    answers (exec (.setBrightness 2) (ready 0x07 0x00)) (fun t =>
      t.config == 0x02 && sentFromIdle t.trace == [[0x82]]) = true := by decide

/-- L2-C5, first line. -/
theorem test_displaySegments :
    answers (exec (.displaySegments 0x06 0x76) (ready 0x0F 0x00)) (fun t =>
      t.trace.length == 181 && waits t.trace == 68 &&
      sentFromIdle t.trace == [[0x44], [0xC2, 0x76]]) = true := by decide +kernel

/-- L2-C5, second line: SEG1 is unchanged. -/
theorem test_displaySegments_leaves_seg1 :
    answers (exec (.displaySegments 0x01 0xFF) (ready 0x0F 0x00)) (fun t => t.seg1 == 0x00) = true := by decide +kernel

/-! ### Rendering operations (L2-R) -/

/-- L2-R1, row 5: the cached colon bit is merged, also at the masked position 5. -/
theorem test_displayDigit_colon :
    answers (exec (.displayDigit 0x05 0x03) (ready 0x0F 0x80)) (fun t =>
      t.seg1 == 0xCF && sentFromIdle t.trace == [[0x44], [0xC1, 0xCF]]) = true := by decide +kernel

/-- L2-R1, row 6: a blank elsewhere, the cache untouched. -/
theorem test_displayDigit_elsewhere :
    answers (exec (.displayDigit 0x03 0x0C) (ready 0x0F 0x80)) (fun t =>
      t.seg1 == 0x80 && sentFromIdle t.trace == [[0x44], [0xC3, 0x00]]) = true := by decide +kernel

/-- L2-R2, rows 2 and 3. -/
theorem test_displayColon :
    answers (exec (.displayColon true) (ready 0x0F 0x5B)) (fun t =>
      t.seg1 == 0xDB && sentFromIdle t.trace == [[0x44], [0xC1, 0xDB]]) = true ∧
    answers (exec (.displayColon false) (ready 0x0F 0xDB)) (fun t => t.seg1 == 0x5B) = true := by decide +kernel

/-- L2-R3: 123 on one position, truncated to "3"; SEG1 untouched. -/
theorem test_displayNumber :
    answers (exec (.displayNumber 123 false 0x00) { ready 0x0F 0xDB with size := 1 }) (fun t =>
      t.seg1 == 0xDB && sentFromIdle t.trace == [[0x44], [0xC0, 0x4F]]) = true := by decide +kernel

/-- L2-R3: rows on four, three, two and one positions. -/
theorem test_renderNumber :
    let buf (n : Nat) (v : Int) (lz : Bool) (dot : Nat) :=
      patterns n (renderNumber Params.defaults n v lz dot ⟨#v[0xAA, 0xAA, 0xAA, 0xAA], 0, false⟩).buf
    buf 4 8500 false 1 = [0x7F, 0xED, 0x3F, 0x3F] ∧ buf 4 0 false 2 = [0x00, 0x00, 0x00, 0x3F] ∧
    buf 4 12345 false 0 = [0x5B, 0x4F, 0x66, 0x6D] ∧ buf 4 (-5) false 0 = [0x40, 0x00, 0x00, 0x6D] ∧
    buf 4 42 false 1 = [0x00, 0x80, 0x66, 0x5B] ∧ buf 4 42 false 4 = [0x00, 0x00, 0x66, 0x5B] ∧
    buf 3 (-99) false 2 = [0x40, 0x6F, 0xEF] ∧ buf 2 0 true 1 = [0x3F, 0xBF] ∧ buf 1 (-5) false 0 = [0x40] := by decide

/-- R210 on one position: a blank at position 0, and SEG1 zero. -/
theorem test_clear :
    answers (exec .clear { ready 0x0F 0xDB with size := 1 }) (fun t =>
      t.seg1 == 0x00 && sentFromIdle t.trace == [[0x44], [0xC0, 0x00]]) = true := by decide +kernel

/-- L2-R4: SIZE 2, the sequence in full. -/
theorem test_clear_sequence :
    clearSteps Params.defaults 2 =
      .setSeg1 0x00 ::
        (sendSteps [0x44] ++ sendSteps [0xC0, 0x00] ++ (sendSteps [0x44] ++ sendSteps [0xC1, 0x00])) := by decide +kernel

/-! ### Refusals and the sequencer (L2-X) -/

/-- L2-X: SEL 0x9, at reset and initialized. -/
theorem test_reserved :
    answers (exec (.reserved 1) State.reset) (fun t => t == refusedAs .badSelector State.reset) = true ∧
    answers (exec (.reserved 1) (ready 0x0F 0x00)) (fun t => t.refusals == [.badSelector] && t.trace == []) = true := by
  decide

/-- L2-X: NotInitialized and BadValue. -/
theorem test_refusals :
    answers (exec (.displayDigit 0x00 0x01) State.reset) (fun t => t == refusedAs .notInitialized State.reset) = true ∧
    answers (exec (.displayNumber (-32768) false 0x00) (ready 0x0F 0x00)) (fun t =>
      t.refusals == [.badValue] && t.trace == []) = true := by decide

/-- R95, R246: a presented request is fetched and run by the next step; a tuple that is no request stops it. -/
theorem test_step_runs_pending :
    answers (step { State.reset with pending := [⟨0x9, []⟩, ⟨0x7, []⟩] }) (fun t =>
      t.refusals == [.badSelector] && t.pending == [⟨0x7, []⟩]) = true ∧
    stops (step { State.reset with pending := [⟨0x7, [1]⟩] }) (.malformedRequest .arity) = true := by decide

/-- R37 with ACK_EXPOSE false (R161): nothing is returned. -/
theorem test_results_hidden :
    answers (exec (.setEnabled true)
      { ready 0x0B 0x00 with params := { Params.defaults with ackExpose := false } }) (fun t =>
        t.results == [] && t.trace.length == 64) = true := by decide

/-! ### Wire bytes -/

/-- R81, R82, R83, R88: the byte transmitted, read at the data clocks. -/
theorem test_wire_bytes :
    answers (exec .cmdSetDataMode (lines ⟨.output, true⟩ ⟨.output, false⟩ [false])) (fun t =>
      t.trace == byteEvents 0b01000100 false) = true ∧
    answers (exec (.cmdSetAddress 3) (lines ⟨.output, true⟩ ⟨.output, false⟩ [false])) (fun t =>
      t.trace == byteEvents 0b11000011 false) = true ∧
    answers (exec (.cmdSetDisplay true 5) (lines ⟨.output, true⟩ ⟨.output, false⟩ [true])) (fun t =>
      t.trace == byteEvents 0b10001101 true) = true ∧
    answers (exec (.dataPattern 0xDB) (lines ⟨.output, true⟩ ⟨.output, false⟩ [false])) (fun t =>
      t.trace == byteEvents 0xDB false) = true := by decide

/-- A word of the table placed for the next step is run by it: SEL 0x9, and the byte 0xC2 as its 51 or 53 events. -/
theorem test_withFetchWord :
    answers (step (State.reset.withFetchWord 8 0x9)) (fun t => t.refusals == [.badSelector]) = true ∧
    answers (step (fresh.withFetchWord 8 0xC2)) (fun t => t.trace == byteEvents 0xC2 false) = true := by decide

/-! ### Readings of the trace -/

/-- The transactions of P3 in the shadow, on its draws: SHOWN = [0x00, ?, ?, 0xFF] and DISP 0x0B. -/
theorem test_shadow :
    shadow Params.defaults allLow (setupEvents ++ framesEvents
        [[0x87], [0x83], [0x8B], [0x44], [0xC3, 0xFF], [0x44], [0xC0, 0x00]]
        [false, true, false, false, true, false, true, false, false]) =
      ⟨#v[some 0x00, none, none, some 0xFF], some 0x0B, some 0x44⟩ := by decide +kernel

/-- R264: levels that fall under CLK high in the set-up make a start condition, and INIT's byte is still framed. -/
theorem test_preinit_glitch :
    let g : Free := fun n l => n == 0 || (n ≤ 2 && l == .clk)
    (observe g setupEvents).starts = 1 ∧ (observe g (setupEvents ++ frameEvents [0x8F] [false])).starts = 2 ∧
    (observe g (setupEvents ++ frameEvents [0x8F] [false])).closed = [[⟨0x8F, some false⟩]] := by decide +kernel

/-! ### Witnesses: states and operands that meet the hypotheses of the statements -/

/-- SetOutWritesDirection: latch 1, and a line already an output. -/
theorem witness_SetOutWritesDirection :
    ((lines idleLine ⟨.input, true⟩ []).line .dio).latch = true ∧
    ((lines idleLine ⟨.input, true⟩ []).line .clk).dir = .output := by decide

/-- DriveHighWritesLatch: CLK an output and low; a latch already 1. -/
theorem witness_DriveHighWritesLatch :
    (lines ⟨.output, false⟩ idleLine []).clk = ⟨.output, false⟩ ∧
    ((lines ⟨.output, false⟩ idleLine []).line .dio).latch = true := by decide

/-- DriveLowWritesLatch: an observer of the idle bus; a latch already 0. -/
theorem witness_DriveLowWritesLatch :
    idleObs.clk = Seen.ofLine ⟨.output, true⟩ ∧ idleObs.dio = Seen.ofLine ⟨.output, true⟩ ∧ idleObs.clkLevel = true ∧
    idleObs.dioLevel = true ∧ ((lines ⟨.output, false⟩ idleLine []).line .clk).latch = false := by decide

/-- StartSequence, StopLeavesBusIdle and WriteByteSendsBitsAndSamplesAck: both lines outputs. -/
theorem witness_outputs :
    (lines ⟨.output, true⟩ ⟨.output, false⟩ []).clk.dir = .output ∧
    (lines ⟨.output, true⟩ ⟨.output, false⟩ []).dio.dir = .output := by decide

/-- DataSettlesWhileClockIsLow: the first and the last data bit. -/
theorem witness_DataSettlesWhileClockIsLow : (0 : Nat) < 8 ∧ (7 : Nat) < 8 := by decide

/-- SerializerShiftsTheByteOut: no bit sent, one more than the seventh, and all eight. -/
theorem witness_SerializerShiftsTheByteOut : (0 : Nat) ≤ 8 ∧ (0 : Nat) < 8 ∧ (7 : Nat) < 8 ∧ (8 : Nat) ≤ 8 := by decide

/-- SendFramesBytes: one byte, acknowledged; two bytes. -/
theorem witness_SendFramesBytes :
    ([0x44] : List Byte) ≠ [] ∧ ([0xC1, 0xDB] : List Byte) ≠ [] ∧ (lines idleLine idleLine [false]).clk.dir = .output ∧
    ([0x44] : List Byte).length = 1 ∧
    answers (exec (.send [0x44]) (lines idleLine idleLine [false])) (fun t => t.ret == [false]) = true := by decide

/-- InitConfiguresTheInstance: the least and the greatest size. -/
theorem witness_InitConfiguresTheInstance :
    fresh.seq = .idle ∧ fresh.initDone = false ∧ 1 ≤ (0x01 : Byte).toNat ∧ (0x01 : Byte).toNat ≤ 4 ∧
    1 ≤ (0x04 : Byte).toNat ∧ (0x04 : Byte).toNat ≤ 4 := by decide

/-- InitFramesItsByte: a new instance has an empty trace; its other premises are those of the witness above. -/
theorem witness_InitFramesItsByte : fresh.trace = [] := by decide

/-- SetEnabledPreservesBrightness and SetBrightnessPreservesEnabled: an instance before INIT and one after it, with the ON
bit at bit 3 and CONFIG's bits 7:4 zero. -/
theorem witness_SetEnabledPreservesBrightness :
    fresh.seq = .idle ∧ fresh.initDone = false ∧ initialized.seq = .idle ∧ initialized.initDone = true ∧
    initialized.params.displayOn = 0x08 ∧ initialized.config &&& 0xF0 = 0 := by decide

/-- DisplaySegmentsSendsTwoTransactions and DisplayColonUpdatesCache: an idle instance after INIT. -/
theorem witness_initialized : initialized.seq = .idle ∧ initialized.initDone = true := by decide

/-- DisplayDigitMergesColon: positions at both ends of each clause, the first blank digit, a table without bit 7. -/
theorem witness_DisplayDigitMergesColon :
    initialized.seq = .idle ∧ initialized.initDone = true ∧ (0x01 : Byte).toNat % 4 = 1 ∧ (0xFD : Byte).toNat % 4 = 1 ∧
    (0x00 : Byte).toNat % 4 ≠ 1 ∧ (0xFF : Byte).toNat % 4 ≠ 1 ∧ 10 ≤ (0x0A : Byte).toNat ∧
    ∀ d < 10, (segOf initialized.params d).getLsbD 7 = false := by decide

/-- DisplayNumberRendersDecimal: the least size and the greatest, the least value that is rendered. -/
theorem witness_DisplayNumberRendersDecimal :
    initialized.seq = .idle ∧ initialized.initDone = true ∧ 1 ≤ initialized.size ∧ initialized.size ≤ 4 ∧
    (-32767 : Int) ≠ leastValue initialized.params ∧ 1 ≤ ({ ready 0x0F 0x00 with size := 1 } : State).size := by decide

/-- ClearBlanksEveryPosition: four positions, and one. -/
theorem witness_ClearBlanksEveryPosition :
    initialized.seq = .idle ∧ initialized.initDone = true ∧ 1 ≤ initialized.size ∧ initialized.size ≤ 4 ∧
    1 ≤ ({ ready 0x0F 0x00 with size := 1 } : State).size ∧ ({ ready 0x0F 0x00 with size := 1 } : State).size ≤ 4 := by
  decide

/-- ColonCommutesWithDigit: an idle instance after INIT, with other parameters than the defaults. -/
theorem witness_ColonCommutesWithDigit :
    let s : State := { initialized with params := { Params.defaults with cmdAddr := 0x00 } }
    s.seq = .idle ∧ s.initDone = true := by decide

/-- ReservedSelectorIsRefused and RefusalReasonsInOrder: instances before and after INIT, the sizes next to 1..4, a
request that is neither INIT nor reserved. -/
theorem witness_RefusalReasonsInOrder :
    State.reset.seq = .idle ∧ State.reset.initDone = false ∧ initialized.initDone = true ∧ (0x00 : Byte).toNat < 1 ∧
    4 < (0x05 : Byte).toNat ∧ Instr.clear.isRequest = true := by decide

/-- The other premises of RefusalReasonsInOrder and ResetAcceptsOnlyInit. -/
theorem witness_not_init : (∀ e b n, Instr.clear ≠ .init e b n) ∧ ∀ low, Instr.clear ≠ .reserved low :=
  ⟨by simp, by simp⟩

/-- An operation in progress: WRITE_BYTE 0x44, at its first event. -/
def inProgress : State := placeInternal (.writeByte 0x44) (byteSteps 0x44) initialized

/-- RequestWaitsForIdle, EventByEventIsWholeOperation and StepOtherwise: an operation in progress. -/
theorem witness_busy : inProgress.seq = .busy (.writeByte 0x44) 0 ∧ Instr.clear.isRequest = true := by decide

/-- StepRunsTheDecodedRequest and StepOtherwise: a request that decodes, one that does not, and none. -/
theorem witness_StepRunsTheDecodedRequest :
    ({ initialized with pending := [⟨0x7, []⟩] } : State).seq = .idle ∧
    ({ initialized with pending := [⟨0x7, []⟩] } : State).pending = ⟨0x7, []⟩ :: [] ∧
    decodeRequest initialized.params ⟨0x7, []⟩ = .instr .clear ∧
    decodeRequest initialized.params ⟨0x7, [0]⟩ = .rejected .arity ∧ initialized.pending = [] := by decide

/-- StepKeepsInvariant, ShadowShowsTheSegmentsSent: the invariant holds after INIT. -/
theorem witness_Invariant : Invariant initialized := by
  have h : initialized.trace = setupEvents ++ (startEvents ++ (byteEvents 0x8F false ++ stopEvents)) := by decide
  refine ⟨by decide, by decide, by decide, fun hi => absurd hi (by decide), fun _ =>
    ⟨by decide, by decide, by decide, by decide, by decide, _, h, fun g => ?_⟩⟩
  rw [h, observe_append, observe_setupEvents g, replay_append, replay_append, replay_startEvents_low,
    replay_byteEvents _ _ _ _ _ _ _ rfl rfl, replay_stopEvents _ _ _ _ _ rfl rfl]
  exact ⟨⟨rfl, rfl, rfl, rfl, rfl, rfl, rfl⟩, _, rfl, rfl, rfl⟩

/-- StepKeepsInvariant, StepOnlyExtendsTheRecord: a step that answers a next state. -/
theorem witness_step :
    answers (step { initialized with pending := [⟨0x1, [0]⟩] }) (fun t => t.config == 0x07) = true := by decide

/-- RegisterWriters, OnlyKnownTransactionsAreSent, AckValuesChangeNothingElse: an operation at IDLE, under two draws; it is no
DISPLAY_NUMBER. -/
theorem witness_draws :
    initialized.seq = .idle ∧ (Instr.setEnabled false).isRequest = true ∧
    (Instr.setEnabled false ≠ .displayNumber 0 false 0x00) ∧
    answers (exec (.setEnabled false) initialized) (fun t => t.ack == false) = true ∧
    answers (exec (.setEnabled false) { initialized with slave := [true], samples := 1, stream := 1 }) (fun t => t.ack) = true := by
  decide

/-- StepSendsOnlyKnownTransactions: an initialized instance that has sent its display-control command; witness_step is its
step. -/
theorem witness_SentOnlyKnown : SentOnlyKnown initialized :=
  ⟨by decide, fun h => absurd h (by decide), fun _ =>
    ⟨[[0x8F]], [false], by decide, by decide, fun t ht => .inr (.inr ⟨true, 7, (List.mem_singleton.mp ht).trans (by decide)⟩)⟩⟩

/-- CreatedInstanceIsNew: the first of two instances that were there. -/
theorem witness_CreatedInstanceIsNew : 0 < ([State.reset, State.reset] : Instances).length := by decide

/-- RegisterWriters: for each register an operation that is none of its writers. -/
theorem witness_RegisterWriters :
    (∀ e b n, Instr.displayDigit 0x03 0x01 ≠ .init e b n) ∧ (∀ f, Instr.displayDigit 0x03 0x01 ≠ .setEnabled f) ∧
    (∀ l, Instr.displayDigit 0x03 0x01 ≠ .setBrightness l) ∧
    (∀ p d, Instr.displayDigit 0x03 0x01 = .displayDigit p d → p.toNat % 4 ≠ 1) ∧
    (∀ f, Instr.displayDigit 0x03 0x01 ≠ .displayColon f) ∧ Instr.displayDigit 0x03 0x01 ≠ .clear ∧
    ∀ v z d, Instr.displayDigit 0x03 0x01 ≠ .displayNumber v z d :=
  ⟨by simp, by simp, by simp,
   fun p d h => by simp only [Instr.displayDigit.injEq] at h; rw [← h.1]; decide, by simp, by simp, by simp⟩

/-- OnlyKnownTransactionsAreSent: a display-control transaction, which is not the data command. -/
theorem witness_display_command :
    [displayCommand Params.defaults (cfg Params.defaults true 7)] ≠ [dataCommand Params.defaults] := by decide

/-- OperationMinimumTimes: before INIT the least size and the greatest; after it SIZE at most 4 and a value rendered. -/
theorem witness_OperationMinimumTimes :
    fresh.seq = .idle ∧ fresh.initDone = false ∧ 1 ≤ (0x01 : Byte).toNat ∧ (0x04 : Byte).toNat ≤ 4 ∧
    initialized.seq = .idle ∧ initialized.initDone = true ∧ initialized.size ≤ 4 ∧
    (0 : Int) ≠ leastValue initialized.params := by decide

/-- InstancesAreIndependent: two instances, a step of the second, and one of an instance that is not there. -/
theorem witness_InstancesAreIndependent :
    (∃ tt, stepInstance 1 [State.reset, { State.reset with pending := [⟨0x9, []⟩] }] = .next tt) ∧
    (∃ tt, stepInstance 2 [State.reset, State.reset] = .next tt) ∧
    ([State.reset, State.reset] : Instances)[1]? = some State.reset ∧ (0 : Nat) ≠ 1 :=
  ⟨⟨_, rfl⟩, ⟨_, rfl⟩, rfl, by decide⟩

/-- RequestDecodesToItself: well-formed requests, DISPLAY_NUMBER at both ends of its range. -/
theorem witness_RequestDecodesToItself :
    (Instr.displayNumber (-32768) true 0xFF).isRequest = true ∧
    (Instr.displayNumber (-32768) true 0xFF).wellFormed Params.defaults = true ∧
    (Instr.displayNumber 32767 true 0xFF).wellFormed Params.defaults = true ∧
    (Instr.reserved 7).isRequest = true ∧ (Instr.reserved 7).wellFormed Params.defaults = true := by decide

/-- WireBytesDecodeToThemselves: each byte kind, and a byte that decodes. -/
theorem witness_WireBytesDecodeToThemselves :
    Instr.cmdSetDataMode.isWireByte = true ∧ (Instr.cmdSetAddress 3).isWireByte = true ∧
    (Instr.cmdSetDisplay true 7).isWireByte = true ∧ (Instr.dataPattern 0xFF).isWireByte = true ∧
    decode Params.defaults false (.wire 0xC3) = .instr (.cmdSetAddress 3) := by decide

/-- ObserverReadsBackTransactions: an observer of the idle bus, two bytes and two acknowledgments. -/
theorem witness_ObserverReadsBackTransactions :
    idleObs.busIdle ∧ ([false, true] : List Bool).length = ([0xC1, 0xDB] : List Byte).length ∧
    ([] : List Bool).length = ([] : List Byte).length := by
  unfold Obs.busIdle; decide

/-- ClearThenDigitShowsOneDigit: the last position of four, with the premises of witness_Invariant. -/
theorem witness_ClearThenDigitShowsOneDigit :
    initialized.initDone = true ∧ initialized.params = Params.defaults ∧ (0xFF : Byte).toNat % 4 < initialized.size := by
  decide

end Sys2Proof.Tests
end

section
/-! PROOFS. The statements of 20_memory.md: what a sample, and the WRITE_BYTE that issues one, do to the state (R56). -/

namespace Sys2Proof.Machine

/-- READ on its own (R115): the sample's event and the consumed draw; no line and no ACK. -/
theorem perform_sample (l : LineName) (s : State) :
    perform [.sample l] s =
      { s with trace := s.trace ++ [.sample l (draw s)], seq := s.seq.plus 1, ret := [draw s],
               slave := s.slave.tail, samples := s.samples + 1 } := by
  have hd : draw { s with ret := [] } = draw s := rfl
  simp [perform, run, micro, sample, emit, State.consumeDraw, hd, advance_eq_plus]

theorem exec_read (l : LineName) (s : State) : exec (.read l) s = .next (perform [.sample l] s) := rfl

/-- WRITE_BYTE on its own leaves the state that `wrote` describes (R133, R134). -/
theorem perform_byteSteps (x : Byte) (s : State) : perform (byteSteps x) s = wrote x s (perform (byteSteps x) s) := by
  obtain ⟨r, c, h⟩ := run_byteSteps x { s with ret := [] }
  have hd : draw { s with ret := [] } = draw s := rfl
  simp [perform, h, hd, wrote]

theorem exec_writeByte (x : Byte) (s : State) : exec (.writeByte x) s = .next (perform (byteSteps x) s) := rfl

/-- ACK after WRITE_BYTE is the level drawn at its one sample (R133). -/
theorem perform_byteSteps_ack (x : Byte) (s : State) : (perform (byteSteps x) s).ack = draw s := by
  rw [perform_byteSteps, wrote]

/-- Settles O5: READ's whole next state, and ACK as WRITE_BYTE leaves it. -/
theorem sampleHasNoSideEffect : Obligations.SampleHasNoSideEffect := by
  unfold Obligations.SampleHasNoSideEffect
  constructor
  · intro l s
    rw [exec_read, perform_sample]
  · intro x s
    exact ⟨perform (byteSteps x) s, exec_writeByte x s, perform_byteSteps_ack x s⟩

end Sys2Proof.Machine
end

section
/-! PROOFS. The statements of 40_line.md: what a drive of a line writes, and the levels it gives (R51, R52, R113). -/

namespace Sys2Proof.Machine

/-- Writing a line's own two bits back changes nothing. -/
@[simp] theorem setLine_line (l : LineName) (s : State) : s.setLine l (s.line l) = s := by
  cases l <;> rfl

/-- A latch that already holds the bit: writing it changes nothing (R21). -/
theorem setLine_same_latch {l : LineName} {b : Bool} {s : State} (h : (s.line l).latch = b) :
    s.setLine l ⟨(s.line l).dir, b⟩ = s := by
  subst h
  exact setLine_line l s

/-- DRIVE_HIGH and DRIVE_LOW on their own (R113, R114): the latch, whatever the direction, and one event. -/
theorem perform_drive (l : LineName) (b : Bool) (s : State) :
    perform [.drive l b] s =
      { s.setLine l ⟨(s.line l).dir, b⟩ with
        trace := s.trace ++ [.drive l b], seq := s.seq.plus 1, ret := [] } := by
  cases l <;> simp [perform, run, micro, drive, emit, State.line, advance_eq_plus]

theorem exec_driveHigh (l : LineName) (s : State) : exec (.driveHigh l) s = .next (perform [.drive l true] s) := rfl

/-- CLK as an output has the level of its latch (R51). -/
theorem clkLevel_output (b : Bool) : clkLevel (Seen.ofLine ⟨.output, b⟩) = Level.ofBit b := rfl

/-- DIO released with its latch high is pulled up while the slave does not pull (R52). -/
theorem dioLevel_pullUp : dioLevel (Seen.ofLine ⟨.input, true⟩) false = .high := rfl

/-- Settles O3: DRIVE_HIGH's whole next state, and the levels on the lines it drives. -/
theorem driveHighWritesLatch : Obligations.DriveHighWritesLatch := by
  unfold Obligations.DriveHighWritesLatch
  intro l s
  refine ⟨?_, dioLevel_pullUp, ?_, setLine_same_latch⟩
  · rw [exec_driveHigh, perform_drive]
  · intro hclk
    rw [hclk]
    exact ⟨clkLevel_output false, clkLevel_output true⟩

end Sys2Proof.Machine
end

section
/-! PROOFS. The statements of 41_framing.md: START (R131), STOP (R137) and SEND (R140), each run on its own. -/

namespace Sys2Proof.Machine

theorem countEvents_append (f : Event → Bool) (es fs : List Event) :
    countEvents f (es ++ fs) = countEvents f es + countEvents f fs := by
  simp [countEvents]

/-- Waits add up along a trace (R135, R141). -/
theorem waits_append (es fs : List Event) : waits (es ++ fs) = waits es + waits fs := countEvents_append _ es fs

/-! ### SEND -/

/-- SEND on its own leaves the state that `transmitted` describes, with its events counted by SEQ (R140). -/
theorem perform_sendSteps (bytes : List Byte) (hb : bytes ≠ []) (s : State) :
    perform (sendSteps bytes) s =
      { transmitted [bytes] s (perform (sendSteps bytes) s) with
        seq := s.seq.plus (frameEvents bytes (draws bytes.length s)).length } := by
  obtain ⟨r, b, h⟩ := run_sendSteps bytes hb { s with ret := [] }
  have hd : draws bytes.length { s with ret := [] } = draws bytes.length s := draws_congr _ rfl rfl rfl
  have hn : byteCount [bytes] = bytes.length := by simp [byteCount]
  rw [hd] at h
  simp [perform, h, transmitted, hn, framesEvents_single _ _ (draws_length bytes.length s)]

theorem exec_send (bytes : List Byte) (s : State) : exec (.send bytes) s = .next (perform (sendSteps bytes) s) := rfl

/-- The draws of at least one sample have a last one, which no default replaces. -/
theorem some_getLast_draws {n : Nat} (hn : n ≠ 0) (s : State) (a : Bool) :
    some ((draws n s).getLast?.getD a) = (draws n s).getLast? := by
  have hne : draws n s ≠ [] := fun h => hn (by simpa [h] using (draws_length n s).symm)
  rw [List.getLast?_eq_some_getLast hne, Option.getD_some]

/-- One acknowledged byte makes 64 events: 4 of START, 53 of WRITE_BYTE and 7 of STOP (R131, R135, R137). -/
theorem frameEvents_acknowledged_length (x : Byte) : (frameEvents [x] [false]).length = 64 := rfl

/-- Settles O13: SEND's whole next state, and the trace, ACK and lines read off it. -/
theorem sendFramesBytes : Obligations.SendFramesBytes := by
  unfold Obligations.SendFramesBytes
  intro bytes s hb hclk
  have hwhole := perform_sendSteps bytes hb s
  refine ⟨_, exec_send bytes s, hwhole, ?_⟩
  generalize perform (sendSteps bytes) s = t at hwhole
  have hret : t.ret = draws bytes.length s := congrArg State.ret hwhole
  have hack : t.ack = (draws bytes.length s).getLast?.getD s.ack := congrArg State.ack hwhole
  have htrace : t.trace = s.trace ++ frameEvents bytes t.ret := by
    rw [hret, ← framesEvents_single bytes _ (draws_length _ s)]
    exact congrArg State.trace hwhole
  have hline : t.clk = ⟨s.clk.dir, true⟩ := congrArg State.clk hwhole
  refine ⟨htrace, hret, ?_, ?_, ?_, congrArg State.dio hwhole, ?_⟩
  · rw [hret, draws_length]
  · rw [hack, hret, some_getLast_draws (by simpa using hb)]
  · rw [hline, hclk, idleLine]
  · intro hone hacked
    obtain ⟨x, rfl⟩ := List.length_eq_one_iff.mp hone
    rw [htrace, hacked, List.length_append, frameEvents_acknowledged_length]

/-! ### START and STOP -/

/-- START on its own (R131). -/
theorem perform_startSteps (s : State) :
    perform startSteps s =
      { s with clk := ⟨s.clk.dir, true⟩, dio := ⟨s.dio.dir, false⟩, trace := s.trace ++ startEvents,
               seq := s.seq.plus 4, ret := [] } := run_startSteps _

theorem exec_start (s : State) : exec .start s = .next (perform startSteps s) := rfl

theorem waits_startEvents : waits startEvents = 1 := rfl

/-- Settles O7: START's whole next state, the lines from two outputs, and its counts. -/
theorem startSequence : Obligations.StartSequence := by
  unfold Obligations.StartSequence
  intro s
  refine ⟨_, exec_start s, perform_startSteps s, ?_, ?_, ?_⟩ <;> rw [perform_startSteps]
  · intro hclk hdio
    simp [hclk, hdio]
  · exact List.length_append
  · rw [waits_append, waits_startEvents]

/-- STOP on its own (R137). -/
theorem perform_stopSteps (s : State) :
    perform stopSteps s =
      { s with clk := ⟨s.clk.dir, true⟩, dio := ⟨s.dio.dir, true⟩, trace := s.trace ++ stopEvents,
               seq := s.seq.plus 7, ret := [] } := run_stopSteps _

theorem exec_stop (s : State) : exec .stop s = .next (perform stopSteps s) := rfl

theorem waits_stopEvents : waits stopEvents = 3 := rfl

/-- Settles O12: STOP's whole next state, the idle bus from two outputs, and its counts. -/
theorem stopLeavesBusIdle : Obligations.StopLeavesBusIdle := by
  unfold Obligations.StopLeavesBusIdle
  intro s
  refine ⟨_, exec_stop s, perform_stopSteps s, ?_, ?_, ?_⟩ <;> rw [perform_stopSteps]
  · intro hclk hdio
    simp [hclk, hdio, idleLine]
  · exact List.length_append
  · rw [waits_append, waits_stopEvents]

end Sys2Proof.Machine
end

section
/-! PROOFS. The statements of 42_commands.md: SEND_CONFIG (R162), run on its own. -/

namespace Sys2Proof.Machine

/-- SEND_CONFIG is SEND of the display-control byte for the present CONFIG (R162). -/
theorem exec_sendConfig (s : State) :
    exec .sendConfig s = .next (perform (sendSteps [displayCommand s.params s.config]) s) := rfl

/-- Settles O15: the whole state that SEND leaves, for the one byte that CONFIG gives. -/
theorem sendConfigSendsConfig : Obligations.SendConfigSendsConfig := by
  unfold Obligations.SendConfigSendsConfig
  intro s
  exact ⟨_, exec_sendConfig s, perform_sendSteps [displayCommand s.params s.config] (List.cons_ne_nil _ _) s⟩

end Sys2Proof.Machine
end

section
/-! PROOFS. What each instruction is to the sequencer, said once: a request makes its check (R233), and if it passes, it
runs register transfers, whole transactions and register transfers again; the state after it is given field by field. A
micro-operation or a wire byte writes no register of the operations. -/

namespace Sys2Proof.Machine

/-! ### The shape of a request -/

/-- The refusal check of a request (R233). -/
def checkOf (i : Instr) : State → Option RefuseReason :=
  match i with
  | .init _ _ size => checkInit size
  | .displayNumber value _ _ => checkNumber value
  | .reserved _ => fun _ => some .badSelector
  | _ => checkInitialized

/-- The pattern DISPLAY_DIGIT sends (R190). -/
def digitByte (p : Params) (seg1 position digit : Byte) : Byte :=
  if isColonPosition position then segOf p digit.toNat ||| (seg1 &&& Config.dpBit) else segOf p digit.toNat

/-- `SEGS(i, xs[i])` for the positions of a list of patterns, ascending (R200). -/
def passOver (p : Params) (xs : List Byte) : List (List Byte) := segsUpTo p xs.length fun i => xs[i]?.getD 0

/-- BUF, V and NEG as DISPLAY_NUMBER's loops leave them (R200). -/
def numberRegs (value : Int) (leadingZero : Bool) (dot : Byte) (s : State) : NumRegs :=
  renderNumber s.params s.size value leadingZero dot.toNat s.numRegs

/-- The transactions of a request that passes its check (R163 to R212). -/
def sends (i : Instr) (s : State) : List (List Byte) :=
  match i with
  | .init enabled brightness _ => [[displayCommand s.params (cfg s.params enabled brightness)]]
  | .setEnabled flag => [[displayCommand s.params (cfg s.params flag (bri s.config))]]
  | .setBrightness level => [[displayCommand s.params (cfg s.params (isOn s.config) level)]]
  | .displaySegments position pattern => segs s.params position pattern
  | .displayDigit position digit => segs s.params position (digitByte s.params s.seg1 position digit)
  | .displayColon flag => segs s.params 1 (colonByte flag s.seg1)
  | .displayNumber value leadingZero dot =>
    passOver s.params (patterns s.size (numberRegs value leadingZero dot s).buf)
  | .clear => segsUpTo s.params s.size fun _ => 0x00
  | .reserved _ => []
  | .setOut _ | .setIn _ | .driveHigh _ | .driveLow _ | .read _ | .wait => []
  | .start | .writeByte _ | .stop | .send _ | .sendConfig => []
  | .cmdSetDataMode | .cmdSetAddress _ | .cmdSetDisplay _ _ | .dataPattern _ => []

/-- What a request does before its transactions. -/
def leadSteps (i : Instr) (s : State) : List Micro :=
  match i with
  | .init enabled brightness _ => setupSteps ++ [.setConfig (cfg s.params enabled brightness)]
  | .setEnabled flag => [.setConfig (cfg s.params flag (bri s.config))]
  | .setBrightness level => [.setConfig (cfg s.params (isOn s.config) level)]
  | .displayDigit position digit =>
    if isColonPosition position then [.setSeg1 (digitByte s.params s.seg1 position digit)] else []
  | .displayColon flag => [.setSeg1 (colonByte flag s.seg1)]
  | .displayNumber value leadingZero dot => [.setNumber (numberRegs value leadingZero dot s)]
  | .clear => [.setSeg1 0x00]
  | .displaySegments _ _ | .reserved _ => []
  | .setOut _ | .setIn _ | .driveHigh _ | .driveLow _ | .read _ | .wait => []
  | .start | .writeByte _ | .stop | .send _ | .sendConfig => []
  | .cmdSetDataMode | .cmdSetAddress _ | .cmdSetDisplay _ _ | .dataPattern _ => []

/-- What a request does after its transactions. -/
def trailSteps (i : Instr) : List Micro :=
  match i with
  | .init _ _ size => [.setSize size.toNat, .setSeg1 0x00, .setInit]
  | .displayNumber _ _ _ => [.endNumber]
  | _ => []

/-- The sequence of a request that passes its check. -/
def programOf (i : Instr) (s : State) : List Micro := leadSteps i s ++ (framesSteps (sends i s) ++ trailSteps i)

theorem positionsSteps_passOver (p : Params) (xs : List Byte) :
    positionsSteps p 0 xs = framesSteps (passOver p xs) :=
  positionsSteps_segsUpTo p xs _ fun i hi => by simp [hi]

/-- CLEAR's pass over the positions, in closed form (R210). -/
theorem positionsSteps_clear (p : Params) (n : Nat) :
    positionsSteps p 0 (List.replicate n Config.blank) = framesSteps (segsUpTo p n fun _ => 0x00) := by
  have h := positionsSteps_segsUpTo p (List.replicate n Config.blank) (fun _ => 0x00) (by simp [Config.blank])
  rwa [List.length_replicate] at h

theorem digitSteps_eq (p : Params) (seg1 position digit : Byte) :
    digitSteps p seg1 position digit =
      (if isColonPosition position then [.setSeg1 (digitByte p seg1 position digit)] else []) ++
        framesSteps (segs p position (digitByte p seg1 position digit)) := by
  by_cases h : isColonPosition position <;> simp [digitSteps, digitByte, segsSteps_eq, h]

/-- A request looks at its sequence in the state in which it is accepted, and nowhere else. -/
theorem request_congr {op : Instr} {check : State → Option RefuseReason} {prog prog' : State → List Micro} {s : State}
    (h : prog (finish s) = prog' (finish s)) :
    Host.Outcome.next (φ := Fault) (ρ := Refusal) (request op check prog s) = .next (request op check prog' s) := by
  simp [request, h]

/-- Executing a request is making its check and running its sequence (R160, R233). -/
theorem exec_request (i : Instr) (hi : i.isRequest = true) (s : State) :
    exec i s = .next (request i (checkOf i) (programOf i) s) := by
  cases i with
  | init e b n =>
    exact request_congr (by simp [programOf, leadSteps, sends, trailSteps, initSteps, configSteps_eq])
  | setEnabled f =>
    exact request_congr (by simp [programOf, leadSteps, sends, trailSteps, reconfigureSteps, configSteps_eq])
  | setBrightness l =>
    exact request_congr (by simp [programOf, leadSteps, sends, trailSteps, reconfigureSteps, configSteps_eq])
  | displaySegments p x => exact request_congr (by simp [programOf, leadSteps, sends, trailSteps, segsSteps_eq])
  | displayDigit p d => exact request_congr (by simp [programOf, leadSteps, sends, trailSteps, digitSteps_eq])
  | displayColon f =>
    exact request_congr (by simp [programOf, leadSteps, sends, trailSteps, colonSteps, segsSteps_eq])
  | displayNumber v z d =>
    exact request_congr (by
      simp [programOf, leadSteps, sends, trailSteps, numberSteps, positionsSteps_passOver, numberRegs])
  | clear =>
    exact request_congr (by simp [programOf, leadSteps, sends, trailSteps, clearSteps, positionsSteps_clear])
  | reserved low => rfl
  | _ => cases hi

/-- No transaction of a request is empty (R90). -/
theorem sends_nonempty (i : Instr) (s : State) : ∀ t ∈ sends i s, t ≠ [] := by
  cases i with
  | displaySegments p x => exact segs_nonempty _ _ _
  | displayDigit p d => exact segs_nonempty _ _ _
  | displayColon f => exact segs_nonempty _ _ _
  | displayNumber v z d => exact segsUpTo_nonempty _ _ _
  | clear => exact segsUpTo_nonempty _ _ _
  | _ => simp [sends]

/-! ### The state after a request that passes its check -/

/-- The line set-up's events, for INIT alone (R163). -/
def leadEvents (i : Instr) : List Event :=
  match i with
  | .init _ _ _ => setupEvents
  | _ => []

/-- CLK after the operation: high with its direction, and left as it is where nothing is sent. -/
def clkAfter (i : Instr) (s : State) : Line :=
  match i with
  | .init _ _ _ => idleLine
  | i => if sends i s = [] then s.clk else ⟨s.clk.dir, true⟩

/-- SIZE after the operation. -/
def sizeAfter (i : Instr) (s : State) : Nat :=
  match i with
  | .init _ _ size => size.toNat
  | _ => s.size

/-- CONFIG after the operation. -/
def configAfter (i : Instr) (s : State) : Byte :=
  match i with
  | .init enabled brightness _ => cfg s.params enabled brightness
  | .setEnabled flag => cfg s.params flag (bri s.config)
  | .setBrightness level => cfg s.params (isOn s.config) level
  | _ => s.config

/-- SEG1 after the operation. -/
def seg1After (i : Instr) (s : State) : Byte :=
  match i with
  | .init _ _ _ => 0x00
  | .displayDigit position digit =>
    if isColonPosition position then digitByte s.params s.seg1 position digit else s.seg1
  | .displayColon flag => colonByte flag s.seg1
  | .clear => 0x00
  | .setEnabled _ | .setBrightness _ | .displaySegments _ _ | .displayNumber _ _ _ | .reserved _ => s.seg1
  | .setOut _ | .setIn _ | .driveHigh _ | .driveLow _ | .read _ | .wait => s.seg1
  | .start | .writeByte _ | .stop | .send _ | .sendConfig => s.seg1
  | .cmdSetDataMode | .cmdSetAddress _ | .cmdSetDisplay _ _ | .dataPattern _ => s.seg1

/-- `t` is the state `s` once the request `i`, which passed its check, has run: the registers, the lines and the record.
SR and BITCNT, and BUF, V and NEG after DISPLAY_NUMBER, are left free (R29, R31). -/
structure Completes (i : Instr) (s t : State) : Prop where
  clk : t.clk = clkAfter i s
  dio : t.dio = if sends i s = [] then s.dio else idleLine
  initDone : t.initDone = true
  size : t.size = sizeAfter i s
  config : t.config = configAfter i s
  seg1 : t.seg1 = seg1After i s
  number : (∀ v z d, i ≠ .displayNumber v z d) → t.buf = s.buf ∧ t.v = s.v ∧ t.neg = s.neg
  seq : t.seq = .idle
  todo : t.todo = []
  trace : t.trace = s.trace ++ leadEvents i ++ framesEvents (sends i s) (draws (byteCount (sends i s)) s)
  results : t.results = yields s (draws (byteCount (sends i s)) s)
  refusals : t.refusals = s.refusals
  params : t.params = s.params
  pending : t.pending = s.pending

/-- The state in which an accepted request begins its sequence (R25). -/
def accepted (i : Instr) (s : State) : State := { s with seq := .busy i 0, todo := [], ret := [] }

/-- A passed check means that INIT has completed, except for INIT itself (R233). -/
theorem initDone_of_check {i : Instr} {s : State} (hc : checkOf i s = none) (hi : ∀ e b n, i ≠ .init e b n) :
    s.initDone = true := by
  cases hd : s.initDone with
  | true => rfl
  | false =>
    cases i with
    | init e b n => exact absurd rfl (hi e b n)
    | displayNumber v z d => simp [checkOf, checkNumber, hd] at hc
    | reserved low => simp [checkOf] at hc
    | _ => simp [checkOf, checkInitialized, hd] at hc

/-- A reserved selector passes no check (R233). -/
theorem check_reserved {low : BitVec 3} {s : State} : checkOf (.reserved low) s ≠ none := by simp [checkOf]

/-- What comes before the transactions takes no sample. -/
theorem run_leadSteps_draws (i : Instr) (s : State) (n : Nat) :
    draws n (run (leadSteps i s) (accepted i s)) = draws n s := by
  have hsame : ∀ {u : State}, u.slave = s.slave ∧ u.samples = s.samples ∧ u.stream = s.stream →
      draws n u = draws n s := fun ⟨h1, h2, h3⟩ => draws_congr n h1 h2 h3
  cases i with
  | displayDigit p d =>
    by_cases hp : isColonPosition p <;> simp only [leadSteps, hp, if_true] <;> exact hsame ⟨rfl, rfl, rfl⟩
  | _ => exact hsame ⟨rfl, rfl, rfl⟩

/-- A request that passes its check, at IDLE, completes (R160). -/
theorem request_completes {i : Instr} {s : State} (hi : i.isRequest = true) (hs : s.seq = .idle)
    (hc : checkOf i s = none) : Completes i s (request i (checkOf i) (programOf i) s) := by
  obtain ⟨r, q, h⟩ := run_framesSteps (sends i s) (sends_nonempty i s) (run (leadSteps i s) (accepted i s))
  rw [run_leadSteps_draws] at h
  rw [request_accepted hi hs hc]
  change Completes i s { run (programOf i s) (accepted i s) with
    seq := .idle, todo := [], results := yields s (run (programOf i s) (accepted i s)).ret }
  rw [programOf, run_append, run_append, h]
  have hd : (∀ e b n, i ≠ .init e b n) → s.initDone = true := initDone_of_check hc
  cases i with
  | reserved low => exact absurd hc check_reserved
  | init e b n =>
    constructor <;>
      simp [leadSteps, trailSteps, run, run_append, run_setupSteps, micro, accepted, sends, clkAfter, idleLine,
        sizeAfter, configAfter, seg1After, leadEvents]
  | displayDigit p d =>
    by_cases hp : isColonPosition p <;>
      constructor <;>
        simp [hp, hd, leadSteps, trailSteps, run, micro, accepted, clkAfter, sizeAfter, configAfter, seg1After,
          leadEvents]
  | _ =>
    constructor <;>
      simp [hd, leadSteps, trailSteps, run, micro, accepted, clkAfter, sizeAfter, configAfter, seg1After, leadEvents]

/-- What executing a request at IDLE can do: it is refused, and nothing but the mark changes, or it completes (R232). -/
theorem exec_request_cases {i : Instr} {s t : State} (hi : i.isRequest = true) (hs : s.seq = .idle)
    (h : exec i s = .next t) :
    (∃ why, checkOf i s = some why ∧ t = refuse why s) ∨ (checkOf i s = none ∧ Completes i s t) := by
  rw [exec_request i hi] at h
  obtain rfl := Host.Outcome.next.inj h
  cases hc : checkOf i s with
  | some why => exact .inl ⟨why, rfl, request_refused hs hc⟩
  | none => exact .inr ⟨rfl, request_completes hi hs hc⟩

/-- A request at IDLE whose check fails (R232). -/
theorem exec_refused {i : Instr} {s : State} {why : RefuseReason} (hi : i.isRequest = true) (hs : s.seq = .idle)
    (hc : checkOf i s = some why) : exec i s = .next (refusedAs why s) := by
  rw [exec_request i hi, request_refused hs hc, refusedAs]

/-- A request at IDLE whose check passes (R160). -/
theorem exec_completes {i : Instr} {s : State} (hi : i.isRequest = true) (hs : s.seq = .idle)
    (hc : checkOf i s = none) : ∃ t, exec i s = .next t ∧ Completes i s t :=
  ⟨_, exec_request i hi s, request_completes hi hs hc⟩

/-! ### What a step at IDLE can do -/

theorem decodeByte_isRequest {f : Byte → Instr} {a : Int} {i : Instr} (hf : ∀ x, (f x).isRequest = true)
    (h : decodeByte f a = .instr i) : i.isRequest = true := by
  unfold decodeByte at h
  split at h
  · obtain rfl := Decoded.instr.inj h
    exact hf _
  · cases h

theorem decodeBytes_isRequest {f : Byte → Byte → Instr} {a b : Int} {i : Instr} (hf : ∀ x y, (f x y).isRequest = true)
    (h : decodeBytes f a b = .instr i) : i.isRequest = true := by
  unfold decodeBytes at h
  split at h
  · obtain rfl := Decoded.instr.inj h
    exact hf _ _
  · cases h

theorem decodeNumber_isRequest {p : Params} {v z d : Int} {i : Instr} (h : decodeNumber p v z d = .instr i) :
    i.isRequest = true := by
  unfold decodeNumber at h
  split at h
  · obtain rfl := Decoded.instr.inj h
    rfl
  · cases h

/-- The decoder of requests gives requests only (R96, R97). -/
theorem decodeRequest_isRequest {p : Params} {r : Request} {i : Instr} (h : decodeRequest p r = .instr i) :
    i.isRequest = true := by
  unfold decodeRequest at h
  split at h
  case h_1 | h_7 | h_9 => exact decodeBytes_isRequest (fun _ _ => rfl) h
  case h_5 => exact decodeByte_isRequest (fun _ => rfl) h
  case h_13 => exact decodeNumber_isRequest h
  case h_3 | h_11 | h_15 | h_17 =>
    obtain rfl := Decoded.instr.inj h
    rfl
  all_goals cases h

/-- A step at IDLE: nothing is pending, or the first pending request is taken and refused or completed (R25, R96). -/
theorem step_cases {s t : State} (hs : s.seq = .idle) (h : step s = .next t) :
    t = s ∨ ∃ r rest, s.pending = r :: rest ∧
      ((∃ why, t = refuse why { s with pending := rest }) ∨
      ∃ i, checkOf i { s with pending := rest } = none ∧ Completes i { s with pending := rest } t) := by
  unfold step at h
  rw [hs] at h
  cases hp : s.pending with
  | nil =>
    simp only [fetch, hp] at h
    exact .inl (Host.Outcome.next.inj h).symm
  | cons r rest =>
    simp only [fetch, hp] at h
    split at h
    · next i hi =>
      obtain ⟨why, _, ht⟩ | ⟨hc, ht⟩ :=
        exec_request_cases (s := { s with pending := rest }) (decodeRequest_isRequest hi) hs h
      · exact .inr ⟨r, rest, rfl, .inl ⟨why, ht⟩⟩
      · exact .inr ⟨r, rest, rfl, .inr ⟨i, hc, ht⟩⟩
    · cases h

end Sys2Proof.Machine
end

section
/-! PROOFS. The wire observer of R66 on the frames the block sends: what it reads from one transaction, from an idle bus
and from INIT's line set-up, and from several transactions (20_memory.md section 7). -/

namespace Sys2Proof.Machine

/-- The bytes of a transaction as the observer reads them, each with its acknowledgment (R66). -/
def seenBytes (bytes : List Byte) (acks : List Bool) : List SeenByte :=
  List.zipWith (fun x a => ⟨x, some a⟩) bytes acks

/-- Transactions as the observer reads them, the acknowledgments consumed in order as in `framesEvents`. -/
def seenFrames : List (List Byte) → List Bool → List (List SeenByte)
  | [], _ => []
  | t :: ts, acks => seenBytes t (acks.take t.length) :: seenFrames ts (acks.drop t.length)

/-- From `o` to `o'` the observer saw the transactions `ts`, one start and one stop condition each, and the bus is idle
at the end (R60, R66). -/
structure Obs.Sees (o o' : Obs) (ts : List (List SeenByte)) : Prop where
  idle : o'.busIdle
  starts : o'.starts = o.starts + ts.length
  stops : o'.stops = o.stops + ts.length
  closed : o'.closed = o.closed ++ ts

theorem Obs.Sees.nil {o : Obs} (h : o.busIdle) : o.Sees o [] := ⟨h, rfl, rfl, by simp⟩

theorem Obs.Sees.append {o o' o'' : Obs} {ts us : List (List SeenByte)} (h : o.Sees o' ts) (k : o'.Sees o'' us) :
    o.Sees o'' (ts ++ us) :=
  ⟨k.idle, by simp [k.starts, h.starts, Nat.add_assoc], by simp [k.stops, h.stops, Nat.add_assoc],
    by simp [k.closed, h.closed]⟩

theorem Obs.Sees.onlyTransactions {o o' : Obs} {ts : List (List SeenByte)} (h : o.Sees o' ts) :
    o.onlyTransactions o' := ⟨ts, h.closed, h.starts, h.stops⟩

/-- The observer on an idle bus knows both lines as outputs driven high. -/
theorem busIdle_eq_withLines {o : Obs} (h : o.busIdle) : o = o.withLines true true 0 := by
  obtain ⟨hclk, hdio, hc, hd, _⟩ := h
  exact eq_withLines hclk hdio hc hd

/-- The bytes of a transaction inside its frame: read back in order, whatever the lines were before. -/
theorem replay_payloadEvents (g : Free) (bytes : List Byte) (acks : List Bool) (hl : acks.length = bytes.length)
    (o : Obs) (c d : Bool) (n : Nat) (hf : o.framed = true) (hb : o.bits = []) :
    ∃ sa c' d' n', (o.withLines c d n).replay g (payloadEvents bytes acks) =
      ({ o with sampled := sa, bytes := o.bytes ++ seenBytes bytes acks } : Obs).withLines c' d' n' := by
  induction bytes generalizing acks o c d n with
  | nil => exact ⟨o.sampled, c, d, n, by simp [payloadEvents, Obs.replay, seenBytes]⟩
  | cons x xs ih =>
    obtain ⟨a, as, rfl⟩ := List.exists_cons_of_length_eq_add_one hl
    obtain ⟨sa, c', d', n', h⟩ := ih as (by simpa using hl)
      { o with sampled := some a, bytes := o.bytes ++ [⟨x, some a⟩] } false a (n + 40 + (ackEvents a).length) hf hb
    refine ⟨sa, c', d', n', ?_⟩
    rw [payloadEvents_cons, replay_append, replay_byteEvents g o c d n x a hf hb, h]
    simp [seenBytes]

/-- The rest of a frame after its start condition: the bytes and one stop condition (R137, R140). -/
theorem sees_after_start (g : Free) (bytes : List Byte) (acks : List Bool) (hl : acks.length = bytes.length) (o : Obs)
    (n : Nat) :
    o.Sees
      ((({ o with framed := true, bits := [], bytes := [], starts := o.starts + 1 } : Obs).withLines true false
        n).replay g (payloadEvents bytes acks ++ stopEvents))
      [seenBytes bytes acks] := by
  obtain ⟨sa, c, d, m, h⟩ := replay_payloadEvents g bytes acks hl
    { o with framed := true, bits := [], bytes := [], starts := o.starts + 1 } true false n rfl rfl
  rw [replay_append, h, replay_stopEvents g _ _ _ _ rfl rfl]
  exact ⟨⟨rfl, rfl, rfl, rfl, rfl, rfl, rfl⟩, rfl, rfl, rfl⟩

/-- A transaction from the idle bus. -/
theorem sees_frame_of_idle (g : Free) (bytes : List Byte) (acks : List Bool) (hl : acks.length = bytes.length) {o : Obs}
    (ho : o.busIdle) : o.Sees (o.replay g (frameEvents bytes acks)) [seenBytes bytes acks] := by
  have hstart := replay_startEvents_idle g o 0
  rw [← busIdle_eq_withLines ho] at hstart
  rw [frameEvents, List.append_assoc, replay_append, hstart]
  exact sees_after_start g bytes acks hl o _

/-- INIT's transaction, from the two lines low that its set-up leaves (R132, R264). -/
theorem sees_frame_of_setup (g : Free) (bytes : List Byte) (acks : List Bool) (hl : acks.length = bytes.length) :
    (observe g setupEvents).Sees ((observe g setupEvents).replay g (frameEvents bytes acks))
      [seenBytes bytes acks] := by
  have hstart := replay_startEvents_low g (observe g setupEvents) 0
  rw [← observe_setupEvents] at hstart
  rw [frameEvents, List.append_assoc, replay_append, hstart]
  exact sees_after_start g bytes acks hl _ _

/-- Several transactions from the idle bus. -/
theorem sees_frames_of_idle (g : Free) (ts : List (List Byte)) (acks : List Bool) (hl : acks.length = byteCount ts)
    {o : Obs} (ho : o.busIdle) : o.Sees (o.replay g (framesEvents ts acks)) (seenFrames ts acks) := by
  induction ts generalizing acks o with
  | nil => exact .nil ho
  | cons t ts ih =>
    rw [byteCount_cons] at hl
    have hfirst := sees_frame_of_idle g t (acks.take t.length) (by simp; omega) ho
    have hrest := ih (acks.drop t.length) (by simp; omega) hfirst.idle
    rw [framesEvents, replay_append]
    exact hfirst.append hrest

/-- Settles O45: one transaction from the idle bus. -/
theorem observerReadsBackTransactions : Obligations.ObserverReadsBackTransactions := by
  unfold Obligations.ObserverReadsBackTransactions
  intro g o bytes acks ho hl
  have h := sees_frame_of_idle g bytes acks hl ho
  exact ⟨h.idle, h.starts, h.stops, h.closed⟩

end Sys2Proof.Machine
end

section
/-! PROOFS. The two invariants that every step keeps: what was sent is whole known transactions (30_encoding.md
section 3), and between operations the bus is idle and the observer has seen whole transactions only (10_state.md
section 2, 41_framing.md section 3). -/

namespace Sys2Proof.Machine

/-! ### INIT and the other requests -/

theorem leadEvents_of_not_init {i : Instr} (hi : ∀ e b n, i ≠ .init e b n) : leadEvents i = [] := by
  cases i with
  | init e b n => exact absurd rfl (hi e b n)
  | _ => rfl

/-- INIT's passed check: INIT has not completed, and the size is in 1..4 (R163, R233). -/
theorem checkInit_eq_none {size : Byte} {s : State} :
    checkInit size s = none ↔ s.initDone = false ∧ 1 ≤ size.toNat ∧ size.toNat ≤ 4 := by
  cases hd : s.initDone <;> simp [checkInit, Config.maxDigits, hd, Nat.one_le_iff_ne_zero]

/-- A request that passes its check is INIT before INIT has completed, or another one after it. -/
theorem check_cases {i : Instr} {s : State} (hc : checkOf i s = none) :
    (∃ e b n, i = .init e b n ∧ s.initDone = false ∧ 1 ≤ n.toNat ∧ n.toNat ≤ 4) ∨
      ((∀ e b n, i ≠ .init e b n) ∧ s.initDone = true) := by
  by_cases h : ∃ e b n, i = .init e b n
  · obtain ⟨e, b, n, rfl⟩ := h
    exact .inl ⟨e, b, n, rfl, checkInit_eq_none.mp hc⟩
  · have hi : ∀ e b n, i ≠ .init e b n := fun e b n hi => h ⟨e, b, n, hi⟩
    exact .inr ⟨hi, initDone_of_check hc hi⟩

/-! ### Only known transactions -/

theorem segs_sendable (p : Params) (position x : Byte) : ∀ t ∈ segs p position x, Sendable p t := by
  intro t ht
  obtain rfl | rfl : t = [dataCommand p] ∨ t = [addressCommand p position, x] := by simpa [segs] using ht
  · exact .inl rfl
  · exact .inr (.inl ⟨position, x, rfl⟩)

theorem segsUpTo_sendable (p : Params) (n : Nat) (f : Nat → Byte) : ∀ t ∈ segsUpTo p n f, Sendable p t := by
  intro t ht
  obtain ⟨i, _, hi⟩ := List.mem_flatMap.mp ht
  exact segs_sendable p _ _ t hi

theorem config_sendable (p : Params) (on : Bool) (level : Byte) :
    ∀ t ∈ [[displayCommand p (cfg p on level)]], Sendable p t := by
  intro t ht
  exact .inr (.inr ⟨on, level, List.mem_singleton.mp ht⟩)

/-- Every transaction of every request is a known one (R90, R91). -/
theorem sends_sendable (i : Instr) (s : State) : ∀ t ∈ sends i s, Sendable s.params t := by
  cases i with
  | init e b n => exact config_sendable _ _ _
  | setEnabled f => exact config_sendable _ _ _
  | setBrightness l => exact config_sendable _ _ _
  | displaySegments p x => exact segs_sendable _ _ _
  | displayDigit p d => exact segs_sendable _ _ _
  | displayColon f => exact segs_sendable _ _ _
  | displayNumber v z d => exact segsUpTo_sendable _ _ _
  | clear => exact segsUpTo_sendable _ _ _
  | _ => simp [sends]

/-- A request that completes keeps it: its own transactions come after those sent before. -/
theorem completes_sentOnlyKnown {i : Instr} {s t : State} (hs : SentOnlyKnown s) (hc : checkOf i s = none)
    (ht : Completes i s t) : SentOnlyKnown t := by
  obtain ⟨_, hnew, hold⟩ := hs
  refine ⟨ht.seq, fun h => absurd (ht.initDone.symm.trans h) (by simp), fun _ => ?_⟩
  rw [ht.trace, ht.params]
  obtain ⟨e, b, n, rfl, hd, _⟩ | ⟨hi, hd⟩ := check_cases hc
  · exact ⟨_, _, congrArg (· ++ setupEvents ++ _) (hnew hd), draws_length _ _, sends_sendable _ s⟩
  · obtain ⟨ts, acks, htrace, hl, hts⟩ := hold hd
    refine ⟨ts ++ sends i s, acks ++ draws (byteCount (sends i s)) s, ?_, ?_, ?_⟩
    · rw [htrace, leadEvents_of_not_init hi, framesEvents_append _ _ _ _ hl, List.append_nil, List.append_assoc]
    · rw [List.length_append, hl, draws_length, byteCount_append]
    · intro x hx
      exact (List.mem_append.mp hx).elim (hts x) (sends_sendable i s x)

/-- Settles O51. -/
theorem resetSentOnlyKnown : Obligations.ResetSentOnlyKnown :=
  ⟨rfl, fun _ => rfl, fun h => absurd h (by decide)⟩

/-- Settles O52: by what a step at IDLE can do; a request taken from the queue touches none of the invariant's terms. -/
theorem stepSendsOnlyKnownTransactions : Obligations.StepSendsOnlyKnownTransactions := by
  unfold Obligations.StepSendsOnlyKnownTransactions
  intro s t hs h
  obtain rfl | ⟨_, rest, _, ⟨why, rfl⟩ | ⟨i, hc, ht⟩⟩ := step_cases hs.1 h
  · exact hs
  · exact hs
  · exact completes_sentOnlyKnown (s := { s with pending := rest }) hs hc ht

/-! ### The invariant of the bus -/

/-- The brightness of a config byte takes bits 2:0 only (R84). -/
theorem clampBrightness_high (b : Byte) : clampBrightness b &&& 0xF0 = 0 := by
  revert b; decide

/-- A config byte has bits 7:4 zero where DISPLAY_ON has (R24, R84). -/
theorem cfg_high {p : Params} (hp : p.displayOn &&& 0xF0 = 0) (on : Bool) (b : Byte) : cfg p on b &&& 0xF0 = 0 := by
  rw [cfg, configByte, BitVec.and_or_distrib_right, clampBrightness_high]
  cases on with
  | true => exact BitVec.or_zero.trans hp
  | false => simp

theorem configAfter_high {i : Instr} {s : State} (hp : s.params.displayOn &&& 0xF0 = 0) (hs : s.config &&& 0xF0 = 0) :
    configAfter i s &&& 0xF0 = 0 := by
  cases i with
  | init e b n => exact cfg_high hp _ _
  | setEnabled f => exact cfg_high hp _ _
  | setBrightness l => exact cfg_high hp _ _
  | _ => exact hs

/-- A framed trace grows by whole transactions (R60). -/
theorem framedTrace_append {trace : List Event} (h : framedTrace trace) (ts : List (List Byte)) (acks : List Bool)
    (hl : acks.length = byteCount ts) : framedTrace (trace ++ framesEvents ts acks) := by
  obtain ⟨rest, htrace, hseen⟩ := h
  refine ⟨rest ++ framesEvents ts acks, by rw [htrace, List.append_assoc], fun g => ?_⟩
  obtain ⟨hidle, us, hclosed, hstarts, hstops⟩ := hseen g
  have hnew := sees_frames_of_idle g ts acks hl hidle
  rw [observe_append]
  exact ⟨hnew.idle, (Obs.Sees.append ⟨hidle, hstarts, hstops, hclosed⟩ hnew).onlyTransactions⟩

/-- INIT's trace is framed, whatever conditions its line set-up made (R264). -/
theorem framedTrace_init (b : Byte) (acks : List Bool) (hl : acks.length = 1) :
    framedTrace (setupEvents ++ frameEvents [b] acks) := by
  refine ⟨frameEvents [b] acks, rfl, fun g => ?_⟩
  have h := sees_frame_of_setup g [b] acks hl
  rw [observe_append]
  exact ⟨h.idle, h.onlyTransactions⟩

theorem sizeAfter_of_not_init {i : Instr} (hi : ∀ e b n, i ≠ .init e b n) (s : State) : sizeAfter i s = s.size := by
  cases i with
  | init e b n => exact absurd rfl (hi e b n)
  | _ => rfl

theorem clkAfter_of_idle {i : Instr} {s : State} (hs : s.clk = idleLine) : clkAfter i s = idleLine := by
  cases i with
  | init e b n => rfl
  | _ => simp [clkAfter, hs, idleLine]

/-- A request that completes keeps the invariant. -/
theorem completes_invariant {i : Instr} {s t : State} (hs : Invariant s) (hc : checkOf i s = none)
    (ht : Completes i s t) : Invariant t := by
  obtain ⟨_, _, hon, hnew, hold⟩ := hs
  refine ⟨ht.seq, ht.todo, ht.params ▸ hon, fun h => absurd (ht.initDone.symm.trans h) (by simp), fun _ => ?_⟩
  rw [ht.clk, ht.dio, ht.size, ht.config, ht.trace]
  obtain ⟨e, b, n, rfl, hd, hsize⟩ | ⟨hi, hd⟩ := check_cases hc
  · obtain ⟨htrace, _⟩ := hnew hd
    refine ⟨rfl, rfl, hsize.1, hsize.2, cfg_high hon e b, ?_⟩
    rw [htrace]
    change framedTrace (setupEvents ++ framesEvents [[_]] (draws 1 s))
    rw [framesEvents_single _ _ (draws_length 1 s)]
    exact framedTrace_init _ _ (draws_length 1 s)
  · obtain ⟨hclk, hdio, hlow, hhigh, hconfig, hframed⟩ := hold hd
    rw [sizeAfter_of_not_init hi, leadEvents_of_not_init hi, List.append_nil]
    exact ⟨clkAfter_of_idle hclk, by simp [hdio], hlow, hhigh, configAfter_high hon hconfig,
      framedTrace_append hframed _ _ (draws_length _ _)⟩

/-- Settles O33. -/
theorem resetMeetsInvariant : Obligations.ResetMeetsInvariant :=
  ⟨rfl, rfl, by decide, fun _ => ⟨rfl, rfl⟩, fun h => absurd h (by decide)⟩

/-- Settles O34: by what a step at IDLE can do; a request taken from the queue touches none of the invariant's terms. -/
theorem stepKeepsInvariant : Obligations.StepKeepsInvariant := by
  unfold Obligations.StepKeepsInvariant
  intro s t hs h
  obtain rfl | ⟨_, rest, _, ⟨why, rfl⟩ | ⟨i, hc, ht⟩⟩ := step_cases hs.1 h
  · exact hs
  · exact hs
  · exact completes_invariant (s := { s with pending := rest }) hs hc ht

end Sys2Proof.Machine
end

section
/-! PROOFS. The statements of 30_encoding.md: a request, and a wire byte under the default parameters, decode to what
was encoded. -/

namespace Sys2Proof.Machine

/-! ### Requests -/

/-- A u8 argument read back (R92). -/
@[simp] theorem byteArg_byteInt (x : Byte) : byteArg (byteInt x) = some x := by
  have hx : 0 ≤ byteInt x ∧ byteInt x < 256 := by
    have := x.isLt
    simp only [byteInt]
    omega
  rw [byteArg, if_pos hx, byteInt, BitVec.ofInt_natCast, BitVec.ofNat_toNat, BitVec.setWidth_eq]

/-- A Boolean argument read back (R92, R93). -/
@[simp] theorem boolArg_boolInt (b : Bool) : boolArg (boolInt b) = b := by
  cases b <;> rfl

/-- A selector from 0x8 on is reserved, whatever stands beside it (R96). -/
theorem decodeRequest_of_ge {p : Params} {r : Request} (h : 8 ≤ r.sel.toNat) :
    decodeRequest p r = .instr (.reserved (r.sel.extractLsb' 0 3)) := by
  unfold decodeRequest
  split
  case h_17 => rfl
  all_goals omega

/-- A reserved selector read back: its bit 3 is set and its low bits are the operand (R95). -/
theorem decodeRequest_reserved (p : Params) (low : BitVec 3) :
    decodeRequest p ⟨1#1 ++ low, []⟩ = .instr (.reserved low) := by
  have hsel : 8 ≤ (1#1 ++ low).toNat ∧ (1#1 ++ low).extractLsb' 0 3 = low := by revert low; decide
  rw [decodeRequest_of_ge hsel.1, hsel.2]

/-- Decoding the tuple of a request gives the request back (R95). -/
theorem decodeRequest_encodeRequest {p : Params} {i : Instr} {r : Request} (hw : i.wellFormed p = true)
    (h : encodeRequest i = some r) : decodeRequest p r = .instr i := by
  cases i with
  | init e b n =>
    cases h
    simp [decodeRequest, decodeBytes]
  | setEnabled f =>
    cases h
    simp [decodeRequest]
  | setBrightness l =>
    cases h
    simp [decodeRequest, decodeByte]
  | displaySegments q x =>
    cases h
    simp [decodeRequest, decodeBytes]
  | displayDigit q d =>
    cases h
    simp [decodeRequest, decodeBytes]
  | displayColon f =>
    cases h
    simp [decodeRequest]
  | displayNumber v z d =>
    cases h
    have hv : fitsNumWidth p v = true := hw
    simp [decodeRequest, decodeNumber, hv]
  | clear =>
    cases h
    rfl
  | reserved low =>
    cases h
    exact decodeRequest_reserved p low
  | _ => cases h

theorem exists_encodeRequest {i : Instr} (hi : i.isRequest = true) : ∃ r, encodeRequest i = some r := by
  cases i <;> simp_all [Instr.isRequest, encodeRequest]

/-- Settles O41. -/
theorem requestDecodesToItself : Obligations.RequestDecodesToItself := by
  unfold Obligations.RequestDecodesToItself
  intro p i hi hw
  obtain ⟨r, hr⟩ := exists_encodeRequest hi
  exact ⟨r, by simp [encode, hr], decodeRequest_encodeRequest hw hr⟩

/-! ### Wire bytes -/

/-- The byte of an address command gives the masked position back (R63, R82). -/
theorem decodeWire_addressCommand (position : Byte) :
    decodeWire Params.defaults false (addressCommand Params.defaults position) =
      .instr (.cmdSetAddress (position.extractLsb' 0 2)) := by
  revert position; decide

/-- The address command of a position field gives the field back (R82). -/
theorem decodeWire_addressField (pp : BitVec 2) :
    decodeWire Params.defaults false (addressCommand Params.defaults (pp.setWidth 8)) = .instr (.cmdSetAddress pp) := by
  revert pp; decide

/-- The byte of a display-control command gives its two fields back (R83, R84). -/
theorem decodeWire_displayCommand (on : Bool) (level : BitVec 3) :
    decodeWire Params.defaults false
        (displayCommand Params.defaults (configByte Params.defaults on (level.setWidth 8))) =
      .instr (.cmdSetDisplay on level) := by
  revert on level; decide

theorem decodeWire_dataCommand (p : Params) : decodeWire p false (dataCommand p) = .instr .cmdSetDataMode := by
  simp [decodeWire]

/-- A byte of the address class is the command of its two low bits (R82). -/
theorem addressCommand_of_class {b : Byte} (h : b &&& 0xFC = Params.defaults.cmdAddr) :
    addressCommand Params.defaults ((b.extractLsb' 0 2).setWidth 8) = b := by
  revert b; decide

/-- A byte of the display-control class is the command of its bit 3 and its three low bits (R83). -/
theorem displayCommand_of_class {b : Byte} (h : b &&& 0xF0 = Params.defaults.cmdDisplay) :
    displayCommand Params.defaults (configByte Params.defaults (b.getLsbD 3) ((b.extractLsb' 0 3).setWidth 8)) = b := by
  revert b; decide

/-- Settles O42. -/
theorem wireBytesDecodeToThemselves : Obligations.WireBytesDecodeToThemselves := by
  unfold Obligations.WireBytesDecodeToThemselves
  constructor
  · intro i hi
    cases i with
    | cmdSetDataMode => exact ⟨_, rfl, decodeWire_dataCommand _⟩
    | cmdSetAddress pp => exact ⟨_, rfl, decodeWire_addressField pp⟩
    | cmdSetDisplay on level => exact ⟨_, rfl, decodeWire_displayCommand on level⟩
    | dataPattern x => exact ⟨x, rfl, by simp [decode, decodeWire]⟩
    | _ => cases hi
  · intro b i h
    simp only [decode, decodeWire, Bool.false_eq_true, if_false] at h
    split at h
    · next hb =>
      obtain rfl := Decoded.instr.inj h
      rw [hb]
      rfl
    · split at h
      · next hb =>
        obtain rfl := Decoded.instr.inj h
        exact congrArg (some ∘ Encoding.wire) (addressCommand_of_class hb)
      · split at h
        · next hb =>
          obtain rfl := Decoded.instr.inj h
          exact congrArg (some ∘ Encoding.wire) (displayCommand_of_class hb)
        · cases h

/-- Settles O43. -/
theorem tableWordsDecode : Obligations.TableWordsDecode := by
  unfold Obligations.TableWordsDecode
  decide

end Sys2Proof.Machine
end

section
/-! PROOFS. The line micro-operations of 40_line.md, each run on its own: SET_OUT, SET_IN, DRIVE_LOW and WAIT. -/

namespace Sys2Proof.Machine

/-- SET_OUT and SET_IN on their own (R111, R112): the direction, the latch staying, and one event. -/
theorem perform_setDir (l : LineName) (d : Dir) (s : State) :
    perform [.setDir l d] s =
      { s.setLine l ⟨d, (s.line l).latch⟩ with
        trace := s.trace ++ [.setDir l d], seq := s.seq.plus 1, ret := [] } := by
  cases l <;> simp [perform, run, micro, setDir, emit, State.line, advance_eq_plus]

theorem exec_setOut (l : LineName) (s : State) : exec (.setOut l) s = .next (perform [.setDir l .output] s) := rfl

theorem exec_setIn (l : LineName) (s : State) : exec (.setIn l) s = .next (perform [.setDir l .input] s) := rfl

theorem exec_driveLow (l : LineName) (s : State) : exec (.driveLow l) s = .next (perform [.drive l false] s) := rfl

theorem exec_wait (s : State) : exec .wait s = .next (perform [.wait] s) := rfl

/-- A direction that is already written: writing it changes nothing (R21). -/
theorem setLine_same_dir {l : LineName} {d : Dir} {s : State} (h : (s.line l).dir = d) :
    s.setLine l ⟨d, (s.line l).latch⟩ = s := by
  subst h
  exact setLine_line l s

/-- DIO as an output has the level of its latch while the slave does not pull (R52). -/
theorem dioLevel_output (b : Bool) : dioLevel (Seen.ofLine ⟨.output, b⟩) false = Level.ofBit b := rfl

/-- DIO pulled low by the slave while the block drives it high: the two contend (R52, D6). -/
theorem dioLevel_contention : dioLevel (Seen.ofLine ⟨.output, true⟩) true = .any := rfl

/-- DIO as an input that the slave pulls is low (R52). -/
theorem dioLevel_pulled (b : Bool) : dioLevel (Seen.ofLine ⟨.input, b⟩) true = .low := by cases b <;> rfl

/-- DIO as an input that the slave does not pull: pulled up with latch 1, floating with latch 0 (R52, D6). -/
theorem dioLevel_released (b : Bool) :
    dioLevel (Seen.ofLine ⟨.input, b⟩) false = if b then .high else .any := by cases b <;> rfl

/-- DIO falling while CLK stays high is a start condition (R66). -/
theorem start_of_dio_falling (g : Free) (o : Obs) :
    ((o.withLines true true 0).event g (.drive .dio false)).starts = o.starts + 1 := rfl

/-- Settles O1: SET_OUT's whole next state, and the levels of the line it turns into an output. -/
theorem setOutWritesDirection : Obligations.SetOutWritesDirection := by
  unfold Obligations.SetOutWritesDirection
  intro l s
  refine ⟨?_, clkLevel_output _, dioLevel_output _, ?_, setLine_same_dir⟩
  · rw [exec_setOut, perform_setDir]
  · intro hlatch
    rw [hlatch]
    exact dioLevel_contention

/-- Settles O2: SET_IN's whole next state, and the levels of the line it turns into an input. -/
theorem setInWritesDirection : Obligations.SetInWritesDirection := by
  unfold Obligations.SetInWritesDirection
  intro l s
  refine ⟨?_, rfl, dioLevel_pulled _, dioLevel_released _⟩
  rw [exec_setIn, perform_setDir]

/-- Settles O4: DRIVE_LOW's whole next state, the levels on the line, and its start condition. -/
theorem driveLowWritesLatch : Obligations.DriveLowWritesLatch := by
  unfold Obligations.DriveLowWritesLatch
  intro l s
  refine ⟨?_, dioLevel_released false, dioLevel_pulled false, ?_, setLine_same_latch⟩
  · rw [exec_driveLow, perform_drive]
  · intro g o hclk hdio hc hd
    rw [eq_withLines hclk hdio hc hd]
    exact start_of_dio_falling g _

/-- WAIT on its own (R116). -/
theorem perform_wait (s : State) :
    perform [.wait] s = { s with trace := s.trace ++ [.wait], seq := s.seq.plus 1, ret := [] } := by
  simp [perform, run, micro, waitUnit, emit, advance_eq_plus]

/-- Settles O6. -/
theorem waitAppendsOneEvent : Obligations.WaitAppendsOneEvent := by
  unfold Obligations.WaitAppendsOneEvent
  intro s
  rw [exec_wait, perform_wait]

end Sys2Proof.Machine
end

section
/-! PROOFS. WRITE_BYTE and SEND in 41_framing.md: their events, counts and hazards, and the serializer's registers. -/

namespace Sys2Proof.Machine

/-! ### WRITE_BYTE -/

/-- What WRITE_BYTE appends to the trace (R133). -/
theorem perform_byteSteps_trace (x : Byte) (s : State) :
    (perform (byteSteps x) s).trace = s.trace ++ byteEvents x (draw s) := by
  rw [perform_byteSteps, wrote]

/-- Settles O8: the state that `wrote` describes, and the level of DIO in it. -/
theorem writeByteSendsBitsAndSamplesAck : Obligations.WriteByteSendsBitsAndSamplesAck := by
  unfold Obligations.WriteByteSendsBitsAndSamplesAck
  intro x s
  have hwhole := perform_byteSteps x s
  refine ⟨_, exec_writeByte x s, hwhole, ?_⟩
  generalize perform (byteSteps x) s = t at hwhole
  have hclk : t.clk = ⟨s.clk.dir, false⟩ := congrArg State.clk hwhole
  have hack : t.ack = draw s := congrArg State.ack hwhole
  have hdio : t.dio = ⟨.output, t.ack⟩ := hack ▸ congrArg State.dio hwhole
  refine ⟨fun h => by rw [hclk, h], hdio, ?_⟩
  rw [hdio, dioLevel_output]

theorem byteEvents_length (x : Byte) (a : Bool) : (byteEvents x a).length = 51 + if a then 0 else 2 := by
  cases a <;> rfl

theorem waits_byteEvents (x : Byte) (a : Bool) : waits (byteEvents x a) = 20 := by
  cases a <;> rfl

theorem samplesTaken_byteEvents (x : Byte) (a : Bool) : samplesTaken (byteEvents x a) = 1 := by
  cases a <;> rfl

theorem dirWrites_byteEvents (x : Byte) (a : Bool) : dirWrites (byteEvents x a) = if a then 2 else 3 := by
  cases a <;> rfl

theorem clockDrives_byteEvents (x : Byte) (a : Bool) : clockDrives (byteEvents x a) = 9 := by
  cases a <;> rfl

/-- WRITE_BYTE clocks nine times and leaves CLK low, so what follows begins with CLK low (R133, R135). -/
theorem clockRises_byteEvents_append (c : Bool) (x : Byte) (a : Bool) (es : List Event) :
    clockRises c (byteEvents x a ++ es) = 9 + clockRises false es := by
  cases c <;> cases a <;>
    simp [byteEvents, dataEvents, bitEvents, ackEvents, ackPathEvents, clockRises, ← Nat.add_assoc]

theorem clockRises_byteEvents (c : Bool) (x : Byte) (a : Bool) : clockRises c (byteEvents x a) = 9 := by
  simpa [clockRises] using clockRises_byteEvents_append c x a []

/-- Settles O9: the counts of the events that WRITE_BYTE appends. -/
theorem writeByteCounts : Obligations.WriteByteCounts := by
  unfold Obligations.WriteByteCounts
  intro x s
  refine ⟨_, byteEvents x (draw s), exec_writeByte x s, perform_byteSteps_trace x s, ?_⟩
  rw [perform_byteSteps_ack]
  refine ⟨byteEvents_length x _, waits_byteEvents x _, ?_, clockRises_byteEvents _ x _, samplesTaken_byteEvents x _,
    dirWrites_byteEvents x _⟩
  rw [minMicros, waits_byteEvents, Config.delayUs]

theorem dioOnlyWhileClockLow_byteEvents (c : Bool) (x : Byte) (a : Bool) :
    dioOnlyWhileClockLow c (byteEvents x a) = true := by
  cases a <;> rfl

/-- The five events of data bit `i` in the trace of WRITE_BYTE (R133). -/
theorem byteEvents_bit (x : Byte) (a : Bool) {i : Nat} (hi : i < 8) :
    ((byteEvents x a).drop (5 * i)).take 5 = bitEvents (x.getLsbD i) := by
  interval_cases i <;> rfl

/-- Settles O10: the events that WRITE_BYTE appends, read for DIO and for each data bit. -/
theorem dataSettlesWhileClockIsLow : Obligations.DataSettlesWhileClockIsLow := by
  unfold Obligations.DataSettlesWhileClockIsLow
  intro x s
  exact ⟨_, byteEvents x (draw s), exec_writeByte x s, perform_byteSteps_trace x s,
    dioOnlyWhileClockLow_byteEvents _ x _, fun _ => byteEvents_bit x _⟩

/-! ### The sample -/

/-- What of WRITE_BYTE comes before its sample (R133). -/
def stepsToSample (x : Byte) : List Micro :=
  .loadSr x :: (dataSteps ++ [.drive .clk false, .setDir .dio .input, .drive .dio true, .wait])

/-- What of WRITE_BYTE comes after its sample (R133). -/
def stepsFromSample : List Micro :=
  [.ackOutput, .ackLow, .wait, .drive .clk true, .wait, .drive .clk false, .wait, .setDir .dio .output, .endByte]

theorem byteSteps_eq_sample (x : Byte) : byteSteps x = stepsToSample x ++ .sampleAck :: stepsFromSample := rfl

/-- DIO is released, its latch high, when WRITE_BYTE samples it (R54). -/
theorem run_stepsToSample (x : Byte) (s : State) :
    (run (stepsToSample x) s).dio = ⟨.input, true⟩ ∧ draw (run (stepsToSample x) s) = draw s := by
  simp [stepsToSample, run_cons, run_append, run_dataSteps, run, micro, draw]

/-- A released line shows whether the slave pulls (R52). -/
theorem dioLevel_shows_pull (pull : Bool) : dioLevel (Seen.ofLine ⟨.input, true⟩) pull = Level.ofBit (!pull) := by
  cases pull <;> rfl

/-- Settles O11: WRITE_BYTE cut at its one sample. -/
theorem sampleSeesReleasedLine : Obligations.SampleSeesReleasedLine := by
  unfold Obligations.SampleSeesReleasedLine
  intro x s
  obtain ⟨hdio, hdraw⟩ := run_stepsToSample x s
  refine ⟨stepsToSample x, stepsFromSample, byteSteps_eq_sample x, ?_, by decide, hdio, ?_, _, exec_writeByte x s,
    ?_, ?_⟩
  · simp [stepsToSample, dataSteps, bitSteps]
  · rw [hdio]
    exact dioLevel_shows_pull
  · rw [byteSteps_eq_sample]
  · rw [perform_byteSteps_ack, hdraw]

/-! ### The serializer's registers -/

/-- The first `i + 1` data bits are the first `i` and one more (R133). -/
theorem dataSteps_take_succ {i : Nat} (hi : i < 8) :
    dataSteps.take (6 * (i + 1)) = dataSteps.take (6 * i) ++ bitSteps ⟨i, hi⟩ := by
  interval_cases i <;> rfl

theorem run_data_succ (x : Byte) (s : State) {i : Nat} (hi : i < 8) :
    run (.loadSr x :: dataSteps.take (6 * (i + 1))) s =
      run (bitSteps ⟨i, hi⟩) (run (.loadSr x :: dataSteps.take (6 * i)) s) := by
  rw [dataSteps_take_succ hi, run_cons, run_append, run_cons]

/-- SR and BITCNT after `i` data bits (R29, R133). -/
theorem run_data_registers (x : Byte) (s : State) {i : Nat} (hi : i ≤ 8) :
    (run (.loadSr x :: dataSteps.take (6 * i)) s).sr = x >>> i ∧
      (run (.loadSr x :: dataSteps.take (6 * i)) s).bitcnt.val = i := by
  induction i with
  | zero => simp [run, micro]
  | succ i ih =>
    obtain ⟨hsr, hcnt⟩ := ih (by omega)
    rw [run_data_succ x s hi, run_bitSteps]
    simp [hsr, BitVec.shiftRight_add]

/-- Settles O50: by the registers after `i` bits, and what one more bit drives. -/
theorem serializerShiftsTheByteOut : Obligations.SerializerShiftsTheByteOut := by
  unfold Obligations.SerializerShiftsTheByteOut
  intro x s
  refine ⟨⟨ackSteps ++ [.endByte], rfl⟩, fun i hi => ⟨_, rfl, ?_⟩⟩
  obtain ⟨hsr, hcnt⟩ := run_data_registers x s hi
  have hbit : (run (.loadSr x :: dataSteps.take (6 * i)) s).sr.getLsbD 0 = x.getLsbD i := by simp [hsr]
  refine ⟨hsr, hcnt, fun _ => hbit, ?_, fun h => ⟨run_data_succ x s h, ?_⟩⟩
  · rintro rfl
    rw [hsr]
    exact BitVec.ushiftRight_eq_zero (Nat.le_refl 8)
  · rw [run_bitSteps, hbit]

/-! ### SEND -/

/-- SEND of no byte is START and STOP (R140). -/
theorem perform_sendSteps_record (bytes : List Byte) (s : State) :
    (perform (sendSteps bytes) s).trace = s.trace ++ frameEvents bytes (draws bytes.length s) ∧
      (perform (sendSteps bytes) s).ret = draws bytes.length s := by
  by_cases hb : bytes = []
  · subst hb
    simp [perform, sendSteps, bytesSteps, run_append, run_startSteps, run_stopSteps, frameEvents, payloadEvents, draws]
  · rw [perform_sendSteps bytes hb]
    have hn : byteCount [bytes] = bytes.length := by simp [byteCount]
    simp [transmitted, hn, framesEvents_single _ _ (draws_length bytes.length s)]

/-- A count over a frame is that of START, of each byte, and of STOP. -/
theorem countEvents_frameEvents {f : Event → Bool} {k : Nat} (hbyte : ∀ x a, countEvents f (byteEvents x a) = k)
    (bytes : List Byte) (acks : List Bool) (hl : acks.length = bytes.length) :
    countEvents f (frameEvents bytes acks) =
      countEvents f startEvents + k * bytes.length + countEvents f stopEvents := by
  have hpayload : countEvents f (payloadEvents bytes acks) = k * bytes.length := by
    induction bytes generalizing acks with
    | nil => rfl
    | cons x xs ih =>
      obtain ⟨a, as, rfl⟩ := List.exists_cons_of_length_eq_add_one hl
      rw [payloadEvents_cons, countEvents_append, hbyte, ih as (by simpa using hl), List.length_cons]
      ring
  rw [frameEvents, countEvents_append, countEvents_append, hpayload]

theorem waits_frameEvents (bytes : List Byte) (acks : List Bool) (hl : acks.length = bytes.length) :
    waits (frameEvents bytes acks) = 4 + 20 * bytes.length := by
  have h := countEvents_frameEvents waits_byteEvents bytes acks hl
  have h4 : waits startEvents + waits stopEvents = 4 := rfl
  unfold waits at h h4 ⊢
  omega

theorem clockDrives_frameEvents (bytes : List Byte) (acks : List Bool) (hl : acks.length = bytes.length) :
    clockDrives (frameEvents bytes acks) = 9 * bytes.length + 2 := by
  have h := countEvents_frameEvents clockDrives_byteEvents bytes acks hl
  have h2 : clockDrives startEvents + clockDrives stopEvents = 2 := rfl
  unfold clockDrives at h h2 ⊢
  omega

theorem samplesTaken_frameEvents (bytes : List Byte) (acks : List Bool) (hl : acks.length = bytes.length) :
    samplesTaken (frameEvents bytes acks) = bytes.length := by
  have h := countEvents_frameEvents samplesTaken_byteEvents bytes acks hl
  have h0 : samplesTaken startEvents + samplesTaken stopEvents = 0 := rfl
  unfold samplesTaken at h h0 ⊢
  omega

/-- A frame's events: 51 a byte, two more for each acknowledged one (R141). -/
theorem frameEvents_length (bytes : List Byte) (acks : List Bool) (hl : acks.length = bytes.length) :
    (frameEvents bytes acks).length = 11 + 51 * bytes.length + 2 * acks.count false := by
  have hpayload : (payloadEvents bytes acks).length = 51 * bytes.length + 2 * acks.count false := by
    induction bytes generalizing acks with
    | nil =>
      obtain rfl := List.length_eq_zero_iff.mp hl
      rfl
    | cons x xs ih =>
      obtain ⟨a, as, rfl⟩ := List.exists_cons_of_length_eq_add_one hl
      have htail := ih as (by simpa using hl)
      rw [payloadEvents_cons, List.length_append, byteEvents_length, htail]
      cases a <;> simp <;> omega
  have hends : startEvents.length + stopEvents.length = 11 := rfl
  rw [frameEvents, List.length_append, List.length_append, hpayload]
  omega

/-- Nine rising edges a byte, and one in STOP (R141). -/
theorem clockRises_payloadEvents_stop (c : Bool) (bytes : List Byte) (acks : List Bool)
    (hl : acks.length = bytes.length) :
    clockRises c (payloadEvents bytes acks ++ stopEvents) = 9 * bytes.length + 1 := by
  induction bytes generalizing acks c with
  | nil => cases c <;> rfl
  | cons x xs ih =>
    obtain ⟨a, as, rfl⟩ := List.exists_cons_of_length_eq_add_one hl
    rw [payloadEvents_cons, List.append_assoc, clockRises_byteEvents_append, ih _ as (by simpa using hl),
      List.length_cons]
    omega

/-- The rising edges of a frame: START adds one exactly where CLK was low before it (R141). -/
theorem clockRises_frameEvents (c : Bool) (bytes : List Byte) (acks : List Bool) (hl : acks.length = bytes.length) :
    clockRises c (frameEvents bytes acks) = 9 * bytes.length + if c then 1 else 2 := by
  have hstart : ∀ es, clockRises c (startEvents ++ es) = (if c then 0 else 1) + clockRises true es := by
    intro es
    cases c <;> simp [startEvents, clockRises]
  rw [frameEvents, List.append_assoc, hstart, clockRises_payloadEvents_stop true bytes acks hl]
  cases c with
  | true => simp
  | false => simp; omega

/-- Settles O14: the counts of the events that SEND appends. -/
theorem sendCounts : Obligations.SendCounts := by
  unfold Obligations.SendCounts
  intro bytes s
  obtain ⟨htrace, hret⟩ := perform_sendSteps_record bytes s
  have hl : (draws bytes.length s).length = bytes.length := draws_length _ s
  refine ⟨_, frameEvents bytes (draws bytes.length s), exec_send bytes s, htrace, ?_, waits_frameEvents _ _ hl, ?_,
    clockDrives_frameEvents _ _ hl, samplesTaken_frameEvents _ _ hl, clockRises_frameEvents true _ _ hl,
    clockRises_frameEvents false _ _ hl⟩
  · rw [hret, frameEvents_length _ _ hl]
  · rw [minMicros, waits_frameEvents _ _ hl, Config.delayUs]

/-! ### The wire bytes -/

/-- A two-bit position field is its own masked position (R63, R82). -/
theorem addressCommand_field (p : Params) (pp : BitVec 2) :
    addressCommand p (pp.setWidth 8) = p.cmdAddr ||| pp.setWidth 8 := by
  have hmask : ∀ pp : BitVec 2, pp.setWidth 8 &&& Config.posMask = pp.setWidth 8 := by decide
  rw [addressCommand, hmask]

/-- Settles O44: each kind is WRITE_BYTE of the byte that its fields give. -/
theorem wireBytesAreTransmitted : Obligations.WireBytesAreTransmitted := by
  unfold Obligations.WireBytesAreTransmitted
  intro s
  refine ⟨⟨_, rfl, perform_byteSteps _ s⟩, fun pp => ⟨_, rfl, ?_⟩, fun on level => ⟨_, rfl, perform_byteSteps _ s⟩,
    fun x => ⟨_, rfl, perform_byteSteps x s⟩⟩
  rw [← addressCommand_field]
  exact perform_byteSteps _ s

end Sys2Proof.Machine
end

section
/-! PROOFS. The command operations of 42_commands.md: INIT, SET_ENABLED, SET_BRIGHTNESS and DISPLAY_SEGMENTS. -/

namespace Sys2Proof.Machine

/-! ### INIT -/

/-- INIT where none has completed (R163). -/
theorem exec_init {enabled : Bool} {brightness size : Byte} {s : State} (hs : s.seq = .idle) (hd : s.initDone = false)
    (hlow : 1 ≤ size.toNat) (hhigh : size.toNat ≤ 4) :
    ∃ t, exec (.init enabled brightness size) s = .next t ∧
      t = { transmitted [[displayCommand s.params (cfg s.params enabled brightness)]]
              { s with clk := ⟨.output, false⟩, dio := ⟨.output, false⟩, trace := s.trace ++ setupEvents } t with
            config := cfg s.params enabled brightness, size := size.toNat, seg1 := 0x00, initDone := true,
            results := yields s (draws 1 s), todo := [] } := by
  obtain ⟨t, ht, hwhole⟩ := request_initializes (op := .init enabled brightness size) rfl hs
    (checkInit_eq_none.mpr ⟨hd, hlow, hhigh⟩)
    (prog := fun s => initSteps s.params (cfg s.params enabled brightness) size) rfl
  exact ⟨t, congrArg _ ht, hwhole⟩

/-- Settles O16. -/
theorem initConfiguresTheInstance : Obligations.InitConfiguresTheInstance := by
  unfold Obligations.InitConfiguresTheInstance
  intro enabled brightness size s hs hd hlow hhigh
  obtain ⟨t, ht, hwhole⟩ := exec_init hs hd hlow hhigh
  exact ⟨t, ht, hwhole, congrArg State.clk hwhole, congrArg State.dio hwhole⟩

/-! ### SET_ENABLED and SET_BRIGHTNESS -/

theorem checkInitialized_of_initDone {s : State} (hd : s.initDone = true) : checkInitialized s = none := by
  simp [checkInitialized, hd]

theorem checkInitialized_of_new {s : State} (hd : s.initDone = false) :
    checkInitialized s = some .notInitialized := by
  simp [checkInitialized, hd]

/-- One byte's transaction has 62 events, and two more if it is acknowledged (R141). -/
theorem frameEvents_one_length (x : Byte) (a : Bool) : (frameEvents [x] [a]).length = if a then 62 else 64 := by
  cases a <;> rfl

/-- What SET_ENABLED and SET_BRIGHTNESS share: CONFIG is written and sent (R164, R165). -/
theorem request_reconfigures {op : Instr} {c : State → Byte} {s : State} (hop : op.isRequest = true)
    (hs : s.seq = .idle) (hd : s.initDone = true) :
    ∃ t, request op checkInitialized (fun s => reconfigureSteps s.params (c s)) s = t ∧
      t = { transmitted [[displayCommand s.params (c s)]] s t with
            config := c s, results := yields s (draws 1 s), todo := [] } ∧
      t.trace.length = s.trace.length + if t.ack then 62 else 64 := by
  obtain ⟨t, ht, hwhole⟩ := request_sets_config (ts := [[displayCommand s.params (c s)]]) (c := c s)
    (prog := fun s => reconfigureSteps s.params (c s)) hop hs (checkInitialized_of_initDone hd) (List.cons_ne_nil _ _)
    (by simp) (by rw [reconfigureSteps, configSteps_eq])
  have hack : t.ack = draw s := congrArg State.ack hwhole
  have htrace : t.trace = s.trace ++ framesEvents [[displayCommand s.params (c s)]] [draw s] :=
    congrArg State.trace hwhole
  refine ⟨t, ht, hwhole, ?_⟩
  rw [htrace, framesEvents_single _ _ rfl, List.length_append, frameEvents_one_length, hack]

/-- A stored brightness is not clamped (R84). -/
theorem clampBrightness_bri (c : Byte) : clampBrightness (bri c) = c &&& 0x07 := by
  revert c; decide

theorem clampBrightness_eq_min (b : Byte) : clampBrightness b = BitVec.ofNat 8 (min b.toNat 7) := by
  revert b; decide

/-- A config byte under the ON bit of R24. -/
theorem cfg_of_on_bit {p : Params} (hp : p.displayOn = 0x08) (on : Bool) (b : Byte) :
    cfg p on b = (if on then 0x08 else 0x00) ||| clampBrightness b := by
  rw [cfg, configByte, hp]

/-- Under the ON bit of R24 a recomputed config byte keeps every bit but bit 3, which is the flag. -/
theorem reenabled_bits (flag : Bool) {c : Byte} (hc : c &&& 0xF0 = 0) :
    ((if flag then 0x08 else 0x00) ||| clampBrightness (c &&& 0x07)) &&& 0xF7 = c &&& 0xF7 ∧
      ((if flag then 0x08 else 0x00) ||| clampBrightness (c &&& 0x07)).getLsbD 3 = flag := by
  revert flag c; decide

/-- Under the ON bit of R24 the low bits of a config byte are the clamped brightness, and bit 3 is the flag. -/
theorem rebrightened_bits (on : Bool) (level : Byte) :
    (((if on then 0x08 else 0x00) ||| clampBrightness level) &&& 0x07).toNat = min level.toNat 7 ∧
      ((if on then 0x08 else 0x00) ||| clampBrightness level).getLsbD 3 = on := by
  revert on level; decide

/-- Bit 3 of a byte, in its place. -/
theorem on_bit_eq_and (c : Byte) : (if c.getLsbD 3 then 0x08 else 0x00) = c &&& 0x08 := by
  revert c; decide

/-- Settles O17. -/
theorem setEnabledPreservesBrightness : Obligations.SetEnabledPreservesBrightness := by
  unfold Obligations.SetEnabledPreservesBrightness
  intro flag s hs
  refine ⟨fun _ => rfl, fun hd => exec_refused rfl hs (checkInitialized_of_new hd), fun hd => ?_⟩
  obtain ⟨t, ht, hwhole, hlength⟩ := request_reconfigures (op := .setEnabled flag)
    (c := fun s => cfg s.params flag (bri s.config)) rfl hs hd
  refine ⟨t, congrArg _ ht, hwhole, ?_, hlength, fun hon hconfig => ?_⟩
  · exact congrArg _ (clampBrightness_bri s.config)
  · have htconfig : t.config = cfg s.params flag (s.config &&& 0x07) := congrArg State.config hwhole
    rw [htconfig, cfg_of_on_bit hon]
    exact reenabled_bits flag hconfig

/-- Settles O18. -/
theorem setBrightnessPreservesEnabled : Obligations.SetBrightnessPreservesEnabled := by
  unfold Obligations.SetBrightnessPreservesEnabled
  intro level s hs
  refine ⟨decodeRequest_encodeRequest (i := .setBrightness level) rfl rfl,
    fun hd => exec_refused rfl hs (checkInitialized_of_new hd), fun hd => ?_⟩
  obtain ⟨t, ht, hwhole, hlength⟩ := request_reconfigures (op := .setBrightness level)
    (c := fun s => cfg s.params (isOn s.config) level) rfl hs hd
  refine ⟨t, congrArg _ ht, hwhole, hlength, fun hon => ?_⟩
  have htconfig : t.config = cfg s.params (s.config.getLsbD 3) level := congrArg State.config hwhole
  rw [htconfig, cfg_of_on_bit hon]
  refine ⟨?_, rebrightened_bits (s.config.getLsbD 3) level⟩
  rw [on_bit_eq_and, clampBrightness_eq_min]

/-! ### DISPLAY_SEGMENTS -/

/-- A masked position is the position modulo 4 (R63). -/
theorem maskedPosition_eq_mod (position : Byte) :
    position &&& Config.posMask = BitVec.ofNat 8 (position.toNat % 4) := by
  revert position; decide

/-- DISPLAY_SEGMENTS after INIT (R166). -/
theorem exec_displaySegments {position pattern : Byte} {s : State} (hs : s.seq = .idle) (hd : s.initDone = true) :
    ∃ t, exec (.displaySegments position pattern) s = .next t ∧
      t = { transmitted (segs s.params position pattern) s t with results := yields s (draws 3 s), todo := [] } := by
  obtain ⟨t, ht, hwhole⟩ := request_sends (op := .displaySegments position pattern)
    (prog := fun s => segsSteps s.params position pattern) rfl hs (checkInitialized_of_initDone hd)
    (List.cons_ne_nil _ _) (segs_nonempty s.params position pattern) (segsSteps_eq _ _ _)
  exact ⟨t, congrArg _ ht, hwhole⟩

/-- Settles O19. -/
theorem displaySegmentsSendsTwoTransactions : Obligations.DisplaySegmentsSendsTwoTransactions := by
  unfold Obligations.DisplaySegmentsSendsTwoTransactions
  intro position pattern s hs hd
  rw [← maskedPosition_eq_mod]
  exact exec_displaySegments hs hd

end Sys2Proof.Machine
end

section
/-! PROOFS. The rendering operations of 43_rendering.md: DISPLAY_DIGIT, DISPLAY_COLON, DISPLAY_NUMBER and CLEAR. -/

namespace Sys2Proof.Machine

/-! ### DISPLAY_DIGIT and DISPLAY_COLON -/

/-- The colon test is on the position modulo 4 (R92, D10). -/
theorem isColonPosition_iff (position : Byte) : isColonPosition position = true ↔ position.toNat % 4 = 1 := by
  revert position; decide

/-- DISPLAY_DIGIT at a position that is 1 modulo 4: the colon bit is merged and the cache replaced (R190). -/
theorem exec_displayDigit_colon {position digit : Byte} {s : State} (hs : s.seq = .idle) (hd : s.initDone = true)
    (hp : position.toNat % 4 = 1) :
    ∃ t, exec (.displayDigit position digit) s = .next t ∧
      t = { transmitted (segs s.params position (segOf s.params digit.toNat ||| (s.seg1 &&& 0x80))) s t with
            seg1 := segOf s.params digit.toNat ||| (s.seg1 &&& 0x80), results := yields s (draws 3 s),
            todo := [] } := by
  have hcolon := (isColonPosition_iff position).mpr hp
  obtain ⟨t, ht, hwhole⟩ := request_sets_seg1 (op := .displayDigit position digit)
    (prog := fun s => digitSteps s.params s.seg1 position digit) rfl hs (checkInitialized_of_initDone hd)
    (List.cons_ne_nil _ _) (segs_nonempty s.params position (segOf s.params digit.toNat ||| (s.seg1 &&& 0x80)))
    (by rw [digitSteps_eq, if_pos hcolon, digitByte, if_pos hcolon]; rfl)
  exact ⟨t, congrArg _ ht, hwhole⟩

/-- DISPLAY_DIGIT at any other position: the cache stays (R190). -/
theorem exec_displayDigit_plain {position digit : Byte} {s : State} (hs : s.seq = .idle) (hd : s.initDone = true)
    (hp : position.toNat % 4 ≠ 1) :
    ∃ t, exec (.displayDigit position digit) s = .next t ∧
      t = { transmitted (segs s.params position (segOf s.params digit.toNat)) s t with
            results := yields s (draws 3 s), todo := [] } := by
  have hcolon := mt (isColonPosition_iff position).mp hp
  obtain ⟨t, ht, hwhole⟩ := request_sends (op := .displayDigit position digit)
    (prog := fun s => digitSteps s.params s.seg1 position digit) rfl hs (checkInitialized_of_initDone hd)
    (List.cons_ne_nil _ _) (segs_nonempty s.params position (segOf s.params digit.toNat))
    (by rw [digitSteps_eq, if_neg hcolon, digitByte, if_neg hcolon]; rfl)
  exact ⟨t, congrArg _ ht, hwhole⟩

theorem segOf_of_ge (p : Params) {d : Nat} (hd : 10 ≤ d) : segOf p d = 0x00 := by
  simp [segOf, Nat.not_lt.mpr hd, Config.blank]

/-- Merging the cached colon bit keeps it where the pattern has no bit 7 (R190). -/
theorem merged_colon_bit {x : Byte} (hx : x.getLsbD 7 = false) (c : Byte) :
    (x ||| (c &&& 0x80)).getLsbD 7 = c.getLsbD 7 := by
  have hmask : (c &&& 0x80).getLsbD 7 = c.getLsbD 7 := by revert c; decide
  rw [BitVec.getLsbD_or, hx, hmask, Bool.false_or]

/-- Settles O20: by the position modulo 4. -/
theorem displayDigitMergesColon : Obligations.DisplayDigitMergesColon := by
  unfold Obligations.DisplayDigitMergesColon
  intro position digit s hs hd
  by_cases hp : position.toNat % 4 = 1
  · obtain ⟨t, ht, hwhole⟩ := exec_displayDigit_colon (digit := digit) hs hd hp
    refine ⟨t, ht, by rwa [if_pos hp], segOf_of_ge _, fun hplain => ?_⟩
    have hseg1 : t.seg1 = segOf s.params digit.toNat ||| (s.seg1 &&& 0x80) := congrArg State.seg1 hwhole
    rw [hseg1, merged_colon_bit]
    by_cases hdigit : digit.toNat < 10
    · exact hplain _ hdigit
    · rw [segOf_of_ge _ (Nat.not_lt.mp hdigit)]
      rfl
  · obtain ⟨t, ht, hwhole⟩ := exec_displayDigit_plain (digit := digit) hs hd hp
    refine ⟨t, ht, by rwa [if_neg hp], segOf_of_ge _, fun _ => ?_⟩
    rw [show t.seg1 = s.seg1 from (congrArg State.seg1 hwhole).trans rfl]

/-- DISPLAY_COLON after INIT (R195). -/
theorem exec_displayColon {flag : Bool} {s : State} (hs : s.seq = .idle) (hd : s.initDone = true) :
    ∃ t, exec (.displayColon flag) s = .next t ∧
      t = { transmitted (segs s.params 1 (colonByte flag s.seg1)) s t with
            seg1 := colonByte flag s.seg1, results := yields s (draws 3 s), todo := [] } := by
  obtain ⟨t, ht, hwhole⟩ := request_sets_seg1 (op := .displayColon flag)
    (x := colonByte flag s.seg1) (prog := fun s => colonSteps s.params flag s.seg1) rfl hs
    (checkInitialized_of_initDone hd) (List.cons_ne_nil _ _) (segs_nonempty s.params 1 (colonByte flag s.seg1))
    (by rw [colonSteps, segsSteps_eq]; rfl)
  exact ⟨t, congrArg _ ht, hwhole⟩

/-- The cached byte with its bit 7 replaced: that bit, and the others kept (R195). -/
theorem colonByte_bits (flag : Bool) (x : Byte) :
    (colonByte flag x).getLsbD 7 = flag ∧ colonByte flag x &&& 0x7F = x &&& 0x7F := by
  revert flag x; decide

/-- Settles O21. -/
theorem displayColonUpdatesCache : Obligations.DisplayColonUpdatesCache := by
  unfold Obligations.DisplayColonUpdatesCache
  intro flag s hs hd
  obtain ⟨t, ht, hwhole⟩ := exec_displayColon (flag := flag) hs hd
  have hseg1 : t.seg1 = colonByte flag s.seg1 := congrArg State.seg1 hwhole
  refine ⟨t, ht, ?_, hseg1 ▸ colonByte_bits flag s.seg1⟩
  rw [hseg1]
  exact hwhole

/-! ### The colon and a digit at position 1 -/

/-- The trace after SEGS ends in the frame of its address and pattern (R94). -/
theorem framesEvents_segs_suffix (p : Params) (position x : Byte) (s : State) :
    ∃ pre acks, framesEvents (segs p position x) (draws 3 s) = pre ++ frameEvents [addressCommand p position, x] acks ∧
      acks.length = 2 :=
  ⟨frameEvents [dataCommand p] [draw s], draws 2 s.consumeDraw, by
    simp [framesEvents, segs, draws], draws_length 2 _⟩

/-- A state whose last operation was SEGS of its cached byte at position 1: that byte is in its last frame (R195). -/
theorem last_frame_of_segs {s t : State} (h : t.trace = s.trace ++ framesEvents (segs s.params 1 t.seg1) (draws 3 s)) :
    ∃ pre acks, t.trace = pre ++ frameEvents [addressCommand s.params 1, t.seg1] acks ∧ acks.length = 2 := by
  obtain ⟨pre, acks, hframes, hl⟩ := framesEvents_segs_suffix s.params 1 t.seg1 s
  exact ⟨s.trace ++ pre, acks, by rw [h, hframes, List.append_assoc], hl⟩

/-- The set colon bit, and it alone, is what a digit written after it merges. -/
theorem colonByte_true_and (x : Byte) : colonByte true x &&& 0x80 = 0x80 := by
  revert x; decide

/-- The set colon bit covers whatever colon bit the digit written before it had merged. -/
theorem colonByte_true_merged (x c : Byte) : colonByte true (x ||| (c &&& 0x80)) = x ||| 0x80 := by
  have hc : (c &&& 0x80) ||| 0x80 = 0x80 := by revert c; decide
  rw [colonByte, if_pos rfl, setDot, Config.dpBit, BitVec.or_assoc, hc]

/-- DISPLAY_COLON true, then DISPLAY_DIGIT at position 1. -/
theorem exec_colon_then_digit {digit : Byte} {s : State} (hs : s.seq = .idle) (hd : s.initDone = true) :
    ∃ t' t, exec (.displayColon true) s = .next t' ∧ exec (.displayDigit 1 digit) t' = .next t ∧
      t.seg1 = segOf s.params digit.toNat ||| 0x80 ∧
      ∃ pre acks, t.trace = pre ++ frameEvents [addressCommand s.params 1, t.seg1] acks ∧ acks.length = 2 := by
  obtain ⟨t', ht', hcolon⟩ := exec_displayColon (flag := true) hs hd
  have hparams : t'.params = s.params := (congrArg State.params hcolon).trans rfl
  have hseg1 : t'.seg1 = colonByte true s.seg1 := congrArg State.seg1 hcolon
  obtain ⟨t, ht, hdigit⟩ := exec_displayDigit_colon (digit := digit) (position := 1) (s := t')
    ((congrArg State.seq hcolon).trans hs) ((congrArg State.initDone hcolon).trans hd) rfl
  rw [hseg1, colonByte_true_and, hparams] at hdigit
  have htseg1 : t.seg1 = segOf s.params digit.toNat ||| 0x80 := congrArg State.seg1 hdigit
  refine ⟨t', t, ht', ht, htseg1, hparams ▸ last_frame_of_segs (s := t') ?_⟩
  rw [hparams, htseg1]
  exact congrArg State.trace hdigit

/-- DISPLAY_DIGIT at position 1, then DISPLAY_COLON true. -/
theorem exec_digit_then_colon {digit : Byte} {s : State} (hs : s.seq = .idle) (hd : s.initDone = true) :
    ∃ u' u, exec (.displayDigit 1 digit) s = .next u' ∧ exec (.displayColon true) u' = .next u ∧
      u.seg1 = segOf s.params digit.toNat ||| 0x80 ∧
      ∃ pre acks, u.trace = pre ++ frameEvents [addressCommand s.params 1, u.seg1] acks ∧ acks.length = 2 := by
  obtain ⟨u', hu', hdigit⟩ := exec_displayDigit_colon (digit := digit) (position := 1) hs hd rfl
  have hparams : u'.params = s.params := (congrArg State.params hdigit).trans rfl
  have hseg1 : u'.seg1 = segOf s.params digit.toNat ||| (s.seg1 &&& 0x80) := congrArg State.seg1 hdigit
  obtain ⟨u, hu, hcolon⟩ := exec_displayColon (flag := true) (s := u')
    ((congrArg State.seq hdigit).trans hs) ((congrArg State.initDone hdigit).trans hd)
  rw [hseg1, colonByte_true_merged, hparams] at hcolon
  have huseg1 : u.seg1 = segOf s.params digit.toNat ||| 0x80 := congrArg State.seg1 hcolon
  refine ⟨u', u, hu', hu, huseg1, hparams ▸ last_frame_of_segs (s := u') ?_⟩
  rw [hparams, huseg1]
  exact congrArg State.trace hcolon

/-- Settles O24: each order ends with bit 7 set over the digit's pattern. -/
theorem colonCommutesWithDigit : Obligations.ColonCommutesWithDigit := by
  unfold Obligations.ColonCommutesWithDigit
  intro digit s hs hd
  obtain ⟨t', t, ht', ht, htseg1, pre, acks, htrace, hacks⟩ := exec_colon_then_digit (digit := digit) hs hd
  obtain ⟨u', u, hu', hu, huseg1, pre', acks', hutrace, hacks'⟩ := exec_digit_then_colon (digit := digit) hs hd
  have hsame : u.seg1 = t.seg1 := huseg1.trans htseg1.symm
  exact ⟨t, t', u, u', pre, pre', acks, acks', ht', ht, hu', hu, htseg1, hsame, htrace, hacks, hsame ▸ hutrace, hacks'⟩

/-! ### DISPLAY_NUMBER and CLEAR -/

theorem patterns_length {n : Nat} (hn : n ≤ 4) (buf : Vector Byte 4) : (patterns n buf).length = n := by
  simp [patterns, hn]

/-- DISPLAY_NUMBER's pass over the positions, in closed form (R200). -/
theorem positionsSteps_number (p : Params) {n : Nat} (hn : n ≤ 4) (value : Int) (lz : Bool) (dot : Nat) (r : NumRegs) :
    positionsSteps p 0 (patterns n (renderNumber p n value lz dot r).buf) =
      framesSteps (segsUpTo p n (numberPattern p n value lz dot)) := by
  have h := positionsSteps_segsUpTo p (patterns n (renderNumber p n value lz dot r).buf)
    (numberPattern p n value lz dot) (fun i hi => by
      rw [patterns_length hn] at hi
      have hget := renderNumber_getElem p n hn value lz dot r i hi
      have h4 : i < 4 := by omega
      simpa [patterns, h4] using hget)
  rwa [patterns_length hn] at h

theorem checkNumber_eq_none {value : Int} {s : State} (hd : s.initDone = true) (hv : value ≠ leastValue s.params) :
    checkNumber value s = none := by
  simp [checkNumber, hd, hv]

/-- Settles O22. -/
theorem displayNumberRendersDecimal : Obligations.DisplayNumberRendersDecimal := by
  unfold Obligations.DisplayNumberRendersDecimal
  intro value lz dot s hs hd hlow hhigh hv
  obtain ⟨t, ht, hwhole⟩ := request_sets_number (op := .displayNumber value lz dot)
    (ts := segsUpTo s.params s.size (numberPattern s.params s.size value lz dot.toNat))
    (prog := fun s =>
      numberSteps s.params s.size (renderNumber s.params s.size value lz dot.toNat s.numRegs))
    rfl hs (checkNumber_eq_none hd hv) (segsUpTo_ne_nil _ hlow _) (segsUpTo_nonempty _ _ _)
    (by rw [numberSteps, positionsSteps_number _ hhigh])
  rw [byteCount_segsUpTo] at hwhole
  exact ⟨t, congrArg _ ht, hwhole⟩

/-- CLEAR after INIT, with at least one position (R210). -/
theorem exec_clear {s : State} (hs : s.seq = .idle) (hd : s.initDone = true) (hlow : 1 ≤ s.size) :
    ∃ t, exec .clear s = .next t ∧
      t = { transmitted (segsUpTo s.params s.size fun _ => 0x00) s t with
            seg1 := 0x00, results := yields s (draws (3 * s.size) s), todo := [] } := by
  obtain ⟨t, ht, hwhole⟩ := request_sets_seg1 (op := .clear) (prog := fun s => clearSteps s.params s.size) rfl hs
    (checkInitialized_of_initDone hd) (segsUpTo_ne_nil s.params hlow fun _ => 0x00) (segsUpTo_nonempty _ _ _)
    (by rw [clearSteps, positionsSteps_clear])
  rw [byteCount_segsUpTo] at hwhole
  exact ⟨t, congrArg _ ht, hwhole⟩

/-- Settles O23. -/
theorem clearBlanksEveryPosition : Obligations.ClearBlanksEveryPosition := by
  unfold Obligations.ClearBlanksEveryPosition
  intro s hs hd hlow _
  exact exec_clear hs hd hlow

end Sys2Proof.Machine
end

section
/-! PROOFS. Refusals and the sequencer: 60_exceptions.md section 2, and SEQ in 10_state.md section 2. -/

namespace Sys2Proof.Machine

/-! ### Refusals -/

/-- Before INIT every request but INIT and the reserved ones is refused NotInitialized (R233). -/
theorem checkOf_new {i : Instr} {s : State} (hd : s.initDone = false) (hi : i.isRequest = true)
    (hinit : ∀ e b n, i ≠ .init e b n) (hreserved : ∀ low, i ≠ .reserved low) :
    checkOf i s = some .notInitialized := by
  cases i with
  | init e b n => exact absurd rfl (hinit e b n)
  | reserved low => exact absurd rfl (hreserved low)
  | displayNumber v z d => exact if_pos hd
  | setEnabled _ | setBrightness _ | displaySegments _ _ | displayDigit _ _ | displayColon _ | clear =>
    exact checkInitialized_of_new hd
  | _ => cases hi

/-- Settles O25. -/
theorem reservedSelectorIsRefused : Obligations.ReservedSelectorIsRefused := by
  unfold Obligations.ReservedSelectorIsRefused
  intro low s hs
  exact exec_refused rfl hs rfl

/-- Settles O26: each check in its order. -/
theorem refusalReasonsInOrder : Obligations.RefusalReasonsInOrder := by
  unfold Obligations.RefusalReasonsInOrder
  intro s hs
  refine ⟨fun hd => ⟨fun i hi hinit hreserved => ?_, fun e b n hn => ?_⟩, fun hd => ⟨fun e b n => ?_, fun lz dot => ?_⟩⟩
  · exact exec_refused hi hs (checkOf_new hd hi hinit hreserved)
  · have hcheck : checkInit n s = some .badSize := (if_neg (by simp [hd])).trans (if_pos hn)
    exact exec_refused rfl hs hcheck
  · have hcheck : checkInit n s = some .reInit := by simp [checkInit, hd]
    exact exec_refused rfl hs hcheck
  · have hcheck : checkNumber (leastValue s.params) s = some .badValue := by simp [checkNumber, hd]
    exact exec_refused rfl hs hcheck

/-- Settles O27: the outcome of each arm is a next state. -/
theorem everyInstructionAnswersANextState : Obligations.EveryInstructionAnswersANextState := by
  unfold Obligations.EveryInstructionAnswersANextState
  intro i s
  cases i <;> exact ⟨_, rfl⟩

/-- Settles O32: by the checks before INIT, and INIT's accepted form. -/
theorem resetAcceptsOnlyInit : Obligations.ResetAcceptsOnlyInit := by
  unfold Obligations.ResetAcceptsOnlyInit
  refine ⟨rfl, rfl, rfl, rfl, rfl, fun i hi hinit => ?_, ?_⟩
  · by_cases hreserved : ∃ low, i = .reserved low
    · obtain ⟨low, rfl⟩ := hreserved
      exact ⟨.badSelector, exec_refused rfl rfl rfl⟩
    · exact ⟨.notInitialized, exec_refused hi rfl (checkOf_new rfl hi hinit fun low h => hreserved ⟨low, h⟩)⟩
  · obtain ⟨t, ht, hwhole⟩ := exec_init (s := State.reset) (enabled := true) (brightness := 0x09) (size := 0x04)
      rfl rfl (by decide) (by decide)
    exact ⟨t, ht, congrArg State.initDone hwhole, congrArg State.refusals hwhole⟩

/-! ### The sequencer -/

/-- Settles O28. -/
theorem requestWaitsForIdle : Obligations.RequestWaitsForIdle := by
  unfold Obligations.RequestWaitsForIdle
  intro i s hi
  rw [exec_request i hi, exec_request i hi, request_waits]
  exact ⟨rfl, finish_seq s⟩

theorem step_busy {s : State} {op : Instr} {k : Nat} (hs : s.seq = .busy op k) : step s = .next (finish s) := by
  simp [step, hs]

theorem step_nothing_pending {s : State} (hs : s.seq = .idle) (hp : s.pending = []) : step s = .next s := by
  simp [step, fetch, hs, hp]

/-- Settles O29. -/
theorem stepRunsTheDecodedRequest : Obligations.StepRunsTheDecodedRequest := by
  unfold Obligations.StepRunsTheDecodedRequest
  intro s r rest i hs hp hi
  simp only [step, fetch, hs, hp, hi]

/-- Settles O30. -/
theorem stepOtherwise : Obligations.StepOtherwise := by
  unfold Obligations.StepOtherwise
  intro s
  refine ⟨fun op k => step_busy, step_nothing_pending, fun r rest why hs hp hwhy => ?_⟩
  simp only [step, fetch, hs, hp, hwhy]

/-- The last tick retires the operation (R25). -/
theorem tick_nil {s : State} {op : Instr} {k : Nat} (hs : s.seq = .busy op k) (htodo : s.todo = []) :
    tick s = finish s := by
  have htick : tick s = retire s := by simp only [tick, hs, htodo]
  have hsame : { s with todo := [] } = s := by rw [← htodo]
  rw [htick, finish_busy hs, htodo, hsame, run]

/-- A tick that is not the last takes one micro-step: the operation goes on, and finishes as before (R70). -/
theorem tick_cons {s : State} {op : Instr} {k : Nat} {m : Micro} {ms : List Micro} (hs : s.seq = .busy op k)
    (htodo : s.todo = m :: ms) :
    (∃ j, k ≤ j ∧ (tick s).seq = .busy op j) ∧ (tick s).todo = ms ∧ finish (tick s) = finish s := by
  have hmicro : tick s = micro m { s with todo := ms } := by simp only [tick, hs, htodo]
  have htick : tick s = { micro m s with todo := ms } := hmicro.trans (micro_todo m s ms)
  obtain ⟨es, _, hes⟩ := (micro_extends m s).events
  have hseq : (tick s).seq = .busy op (k + es.length) := by rw [htick]; simp [hes, hs]
  refine ⟨⟨_, Nat.le_add_right k _, hseq⟩, by rw [htick], ?_⟩
  rw [finish_busy hseq, finish_busy hs, htodo, run_cons, micro_todo, htick]

/-- Settles O31: by induction on what the operation has still to do, one tick a micro-step and one for its end. -/
theorem eventByEventIsWholeOperation : Obligations.EventByEventIsWholeOperation := by
  unfold Obligations.EventByEventIsWholeOperation
  intro s op k hs
  induction htodo : s.todo generalizing s k with
  | nil =>
    refine ⟨1, tick_nil hs htodo, fun m hm => ?_⟩
    obtain rfl : m = 0 := by omega
    exact ⟨k, Nat.le_refl k, hs⟩
  | cons m ms ih =>
    obtain ⟨⟨j, hj, hseq⟩, hms, hfinish⟩ := tick_cons hs htodo
    obtain ⟨n, hn, hbusy⟩ := ih (tick s) j hseq hms
    refine ⟨n + 1, ?_, fun l hl => ?_⟩
    · rw [Function.iterate_succ_apply, hn, hfinish]
    · cases l with
      | zero => exact ⟨k, Nat.le_refl k, hs⟩
      | succ l =>
        obtain ⟨j', hj', hseq'⟩ := hbusy l (by omega)
        exact ⟨j', hj.trans hj', by rw [Function.iterate_succ_apply, hseq']⟩

end Sys2Proof.Machine
end

section
/-! PROOFS. What a step keeps and which instruction writes what: 10_state.md sections 2 and 4, 20_memory.md sections 2
to 6, 30_encoding.md section 3, 70_reset_and_hazards.md section 4. -/

namespace Sys2Proof.Machine

/-! ### The record -/

theorem results_prefix_yields (s : State) (acks : List Bool) : s.results <+: yields s acks := by
  cases h : s.params.ackExpose <;> simp [yields, h]

/-- Finishing extends the trace and the results, and touches no parameter, no request and no refusal. -/
theorem finish_record (s : State) :
    (finish s).params = s.params ∧ s.trace <+: (finish s).trace ∧ s.results <+: (finish s).results ∧
      (finish s).refusals = s.refusals ∧ (finish s).pending = s.pending := by
  cases hs : s.seq with
  | idle =>
    rw [finish_idle hs]
    exact ⟨rfl, List.prefix_refl _, List.prefix_refl _, rfl, rfl⟩
  | busy op k =>
    obtain ⟨hparams, hpending, hrefusals, hresults, es, htrace, hseq⟩ := run_extends s.todo { s with todo := [] }
    have hbusy : (run s.todo { s with todo := [] }).seq = .busy op (k + es.length) := by simpa [hs] using hseq
    rw [finish_busy hs, retire_busy hbusy]
    refine ⟨hparams, ⟨es, htrace.symm⟩, ?_, hrefusals, hpending⟩
    simp only [hresults]
    split
    · exact List.prefix_append _ _
    · exact List.prefix_refl _

/-- Settles O35: by what a step can do from BUSY and from IDLE. -/
theorem stepOnlyExtendsTheRecord : Obligations.StepOnlyExtendsTheRecord := by
  unfold Obligations.StepOnlyExtendsTheRecord
  intro s t h
  cases hs : s.seq with
  | busy op k =>
    rw [step_busy hs] at h
    obtain rfl := Host.Outcome.next.inj h
    obtain ⟨hparams, htrace, hresults, hrefusals, hpending⟩ := finish_record s
    rw [hrefusals, hpending]
    exact ⟨hparams, htrace, hresults, List.prefix_refl _, List.suffix_refl _, Nat.le_succ _⟩
  | idle =>
    obtain rfl | ⟨r, rest, hp, ⟨why, rfl⟩ | ⟨i, _, ht⟩⟩ := step_cases hs h
    · exact ⟨rfl, List.prefix_refl _, List.prefix_refl _, List.prefix_refl _, List.suffix_refl _, Nat.le_succ _⟩
    · rw [hp]
      exact ⟨rfl, List.prefix_refl _, List.prefix_refl _, List.prefix_append _ _, List.suffix_cons r rest,
        Nat.le_refl _⟩
    · rw [ht.trace, ht.results, ht.refusals, ht.pending, hp, List.append_assoc]
      exact ⟨ht.params, List.prefix_append _ _, results_prefix_yields _ _, List.prefix_refl _, List.suffix_cons r rest,
        Nat.le_refl _⟩

/-! ### Who writes each register -/

/-- The registers of the operations (R23, R24, R26, R27, R31). -/
def State.registers (s : State) : Nat × Bool × Byte × Byte × Vector Byte 4 × Nat × Bool :=
  (s.size, s.initDone, s.config, s.seg1, s.buf, s.v, s.neg)

theorem registers_eq {s t : State} (h : t.registers = s.registers) :
    t.size = s.size ∧ t.initDone = s.initDone ∧ t.config = s.config ∧ t.seg1 = s.seg1 ∧ t.buf = s.buf ∧ t.v = s.v ∧
      t.neg = s.neg := by
  simpa [State.registers] using h

theorem registers_byteSteps (x : Byte) (s : State) : (perform (byteSteps x) s).registers = s.registers := by
  rw [perform_byteSteps]
  rfl

theorem registers_sendSteps (bytes : List Byte) (s : State) :
    (perform (sendSteps bytes) s).registers = s.registers := by
  by_cases hb : bytes = []
  · subst hb
    simp [perform, sendSteps, bytesSteps, run_append, run_startSteps, run_stopSteps, State.registers]
  · rw [perform_sendSteps bytes hb]
    rfl

/-- A micro-operation or a wire byte writes none of them. -/
theorem exec_registers {i : Instr} {s t : State} (hi : i.isRequest = false) (h : exec i s = .next t) :
    t.registers = s.registers := by
  cases i with
  | setOut l | setIn l =>
    obtain rfl := Host.Outcome.next.inj h
    rw [perform_setDir]
    cases l <;> rfl
  | driveHigh l | driveLow l =>
    obtain rfl := Host.Outcome.next.inj h
    rw [perform_drive]
    cases l <;> rfl
  | read l =>
    obtain rfl := Host.Outcome.next.inj h
    rfl
  | wait =>
    obtain rfl := Host.Outcome.next.inj h
    rfl
  | start =>
    obtain rfl := Host.Outcome.next.inj h
    rw [perform_startSteps]
    rfl
  | stop =>
    obtain rfl := Host.Outcome.next.inj h
    rw [perform_stopSteps]
    rfl
  | send bytes =>
    obtain rfl := Host.Outcome.next.inj h
    exact registers_sendSteps bytes s
  | sendConfig =>
    obtain rfl := Host.Outcome.next.inj h
    exact registers_sendSteps _ s
  | writeByte _ | cmdSetDataMode | cmdSetAddress _ | cmdSetDisplay _ _ | dataPattern _ =>
    obtain rfl := Host.Outcome.next.inj h
    exact registers_byteSteps _ s
  | _ => cases hi

theorem configAfter_of_not_writer {i : Instr} (s : State) (hinit : ∀ e b n, i ≠ .init e b n)
    (henabled : ∀ f, i ≠ .setEnabled f) (hbrightness : ∀ l, i ≠ .setBrightness l) : configAfter i s = s.config := by
  cases i with
  | init e b n => exact absurd rfl (hinit e b n)
  | setEnabled f => exact absurd rfl (henabled f)
  | setBrightness l => exact absurd rfl (hbrightness l)
  | _ => rfl

theorem seg1After_of_not_writer {i : Instr} (s : State) (hinit : ∀ e b n, i ≠ .init e b n)
    (hdigit : ∀ p d, i = .displayDigit p d → p.toNat % 4 ≠ 1) (hcolon : ∀ f, i ≠ .displayColon f)
    (hclear : i ≠ .clear) : seg1After i s = s.seg1 := by
  cases i with
  | init e b n => exact absurd rfl (hinit e b n)
  | displayDigit p d => exact if_neg (mt (isColonPosition_iff p).mp (hdigit p d rfl))
  | displayColon f => exact absurd rfl (hcolon f)
  | clear => exact absurd rfl hclear
  | _ => rfl

/-- Settles O36: a refused request and a micro-operation write none of the registers, and a request that completes
writes its own. -/
theorem registerWriters : Obligations.RegisterWriters := by
  unfold Obligations.RegisterWriters
  intro i s t hs h
  have hcases : t.registers = s.registers ∨ (checkOf i s = none ∧ Completes i s t) := by
    cases hi : i.isRequest with
    | false => exact .inl (exec_registers hi h)
    | true =>
      obtain ⟨why, _, rfl⟩ | hcompletes := exec_request_cases hi hs h
      · exact .inl rfl
      · exact .inr hcompletes
  obtain hsame | ⟨hc, ht⟩ := hcases
  · obtain ⟨hsize, hinit, hconfig, hseg1, hnumber⟩ := registers_eq hsame
    exact ⟨fun _ => ⟨hsize, hinit⟩, fun _ _ _ => hconfig, fun _ _ _ _ => hseg1, fun _ => hnumber⟩
  · refine ⟨fun hinit => ⟨?_, ?_⟩, fun hinit henabled hbrightness => ?_, fun hinit hdigit hcolon hclear => ?_,
      ht.number⟩
    · rw [ht.size, sizeAfter_of_not_init hinit]
    · rw [ht.initDone, initDone_of_check hc hinit]
    · rw [ht.config, configAfter_of_not_writer s hinit henabled hbrightness]
    · rw [ht.seg1, seg1After_of_not_writer s hinit hdigit hcolon hclear]

/-! ### What is sent -/

theorem leadEvents_cases (i : Instr) :
    leadEvents i = [] ∨ (leadEvents i = setupEvents ∧ ∃ e b n, i = .init e b n) := by
  cases i with
  | init e b n => exact .inr ⟨rfl, e, b, n, rfl⟩
  | _ => exact .inl rfl

/-- The one transaction of one byte in SEGS is the data command (R94). -/
theorem eq_dataCommand_of_mem_segs {p : Params} {position x b : Byte} (h : [b] ∈ segs p position x) :
    [b] = [dataCommand p] := by
  simpa [segs] using h

theorem eq_dataCommand_of_mem_segsUpTo {p : Params} {n : Nat} {f : Nat → Byte} {b : Byte} (h : [b] ∈ segsUpTo p n f) :
    [b] = [dataCommand p] := by
  obtain ⟨i, _, hi⟩ := List.mem_flatMap.mp h
  exact eq_dataCommand_of_mem_segs hi

/-- A transaction of one byte other than the data command comes from an operation that writes CONFIG (R91). -/
theorem configuring_of_mem_sends {i : Instr} {s : State} {b : Byte} (h : [b] ∈ sends i s)
    (hb : [b] ≠ [dataCommand s.params]) :
    (∃ e b n, i = .init e b n) ∨ (∃ f, i = .setEnabled f) ∨ ∃ l, i = .setBrightness l := by
  cases i with
  | init e b n => exact .inl ⟨e, b, n, rfl⟩
  | setEnabled f => exact .inr (.inl ⟨f, rfl⟩)
  | setBrightness l => exact .inr (.inr ⟨l, rfl⟩)
  | displaySegments _ _ | displayDigit _ _ | displayColon _ => exact absurd (eq_dataCommand_of_mem_segs h) hb
  | displayNumber _ _ _ | clear => exact absurd (eq_dataCommand_of_mem_segsUpTo h) hb
  | _ => simp [sends] at h

/-- Settles O37. -/
theorem onlyKnownTransactionsAreSent : Obligations.OnlyKnownTransactionsAreSent := by
  unfold Obligations.OnlyKnownTransactionsAreSent
  intro i s t hi hs h
  obtain ⟨why, _, rfl⟩ | ⟨_, ht⟩ := exec_request_cases hi hs h
  · exact ⟨[], [], by simp [framesEvents], .inl rfl, by simp, by simp⟩
  · refine ⟨leadEvents i, sends i s, ht.trace, leadEvents_cases i, sends_sendable i s, ?_⟩
    rintro x hx ⟨on, level, rfl⟩ hne
    exact configuring_of_mem_sends hx hne

/-! ### Acknowledgments -/

/-- The same state in another environment (R55). -/
def State.inEnvironment (s : State) (slave : List Bool) (samples stream : Nat) : State :=
  { s with slave := slave, samples := samples, stream := stream }

/-- What a request checks, sends and writes does not depend on the environment (R231). -/
theorem request_inEnvironment (i : Instr) (s : State) (slave : List Bool) (samples stream : Nat) :
    checkOf i (s.inEnvironment slave samples stream) = checkOf i s ∧
      sends i (s.inEnvironment slave samples stream) = sends i s ∧
      clkAfter i (s.inEnvironment slave samples stream) = clkAfter i s ∧
      sizeAfter i (s.inEnvironment slave samples stream) = sizeAfter i s ∧
      configAfter i (s.inEnvironment slave samples stream) = configAfter i s ∧
      seg1After i (s.inEnvironment slave samples stream) = seg1After i s := by
  cases i <;> exact ⟨rfl, rfl, rfl, rfl, rfl, rfl⟩

theorem yields_length (s : State) (acks : List Bool) :
    (yields s acks).length = s.results.length + if s.params.ackExpose then 1 else 0 := by
  cases h : s.params.ackExpose <;> simp [yields, h]

/-- Settles O38: a request refused in one environment is refused in the other, and the two states after a completed one
are the same functions of the state before. -/
theorem ackValuesChangeNothingElse : Obligations.AckValuesChangeNothingElse := by
  unfold Obligations.AckValuesChangeNothingElse
  intro i s t u slave samples stream hi hs ht hu
  obtain ⟨hcheck, hsends, hclk, hsize, hconfig, hseg1⟩ := request_inEnvironment i s slave samples stream
  obtain ⟨why, hc, rfl⟩ | ⟨hc, ht⟩ := exec_request_cases hi hs ht
  · obtain ⟨why', hc', rfl⟩ | ⟨hc', _⟩ := exec_request_cases (s := s.inEnvironment slave samples stream) hi hs hu
    · obtain rfl : why = why' := Option.some.inj (hc.symm.trans (hcheck.symm.trans hc'))
      exact ⟨⟨[], [], [], [], by simp [framesEvents], rfl, by simp [framesEvents, State.inEnvironment], rfl⟩, rfl, rfl,
        rfl, rfl, rfl, rfl, rfl, rfl, rfl, rfl, rfl, fun _ => ⟨rfl, rfl, rfl⟩⟩
    · exact absurd (hc.symm.trans (hcheck.symm.trans hc')) (by simp)
  · obtain ⟨why', hc', rfl⟩ | ⟨_, hu⟩ := exec_request_cases (s := s.inEnvironment slave samples stream) hi hs hu
    · exact absurd (hc.symm.trans (hcheck.symm.trans hc')) (by simp)
    · refine ⟨⟨leadEvents i, sends i s, _, draws _ (s.inEnvironment slave samples stream), ht.trace, draws_length _ _,
        ?_, draws_length _ _⟩, ?_, ?_, ht.initDone.trans hu.initDone.symm, ?_, ?_, ?_, ht.seq.trans hu.seq.symm,
        ht.refusals.trans hu.refusals.symm, ht.params.trans hu.params.symm, ht.pending.trans hu.pending.symm, ?_,
        fun hn => ?_⟩
      · rw [hu.trace, hsends]
        rfl
      · rw [ht.clk, hu.clk, hclk]
      · rw [ht.dio, hu.dio, hsends]
        rfl
      · rw [ht.size, hu.size, hsize]
      · rw [ht.config, hu.config, hconfig]
      · rw [ht.seg1, hu.seg1, hseg1]
      · rw [ht.results, hu.results, yields_length, yields_length]
        rfl
      · obtain ⟨hbuf, hv, hneg⟩ := ht.number hn
        obtain ⟨hbuf', hv', hneg'⟩ := hu.number hn
        exact ⟨hbuf.trans hbuf'.symm, hv.trans hv'.symm, hneg.trans hneg'.symm⟩

/-! ### Least times -/

theorem waits_framesEvents (ts : List (List Byte)) (acks : List Bool) (hl : acks.length = byteCount ts) :
    waits (framesEvents ts acks) = 4 * ts.length + 20 * byteCount ts := by
  induction ts generalizing acks with
  | nil => rfl
  | cons t ts ih =>
    rw [byteCount_cons] at hl ⊢
    rw [framesEvents, waits_append, waits_frameEvents _ _ (by simp; omega), ih _ (by simp; omega), List.length_cons]
    ring

/-- A request that passes its check takes 20 us a transaction and 100 us a byte (R271). -/
theorem exec_minMicros {i : Instr} {s : State} {k : Nat} (hi : i.isRequest = true) (hs : s.seq = .idle)
    (hc : checkOf i s = none) (hk : 20 * (sends i s).length + 100 * byteCount (sends i s) = k) :
    ∃ t es, exec i s = .next t ∧ t.trace = s.trace ++ es ∧ minMicros es = k := by
  obtain ⟨t, ht, hcompletes⟩ := exec_completes hi hs hc
  refine ⟨t, _, ht, by rw [hcompletes.trace, List.append_assoc], ?_⟩
  have hlead : waits (leadEvents i) = 0 := by
    obtain h | ⟨h, _⟩ := leadEvents_cases i <;> rw [h] <;> rfl
  rw [minMicros, waits_append, hlead, waits_framesEvents _ _ (draws_length _ s), Config.delayUs, ← hk]
  ring

/-- The least time of a pass over the positions: two transactions and three bytes each (R271). -/
theorem segsUpTo_micros (p : Params) (n : Nat) (f : Nat → Byte) :
    20 * (segsUpTo p n f).length + 100 * byteCount (segsUpTo p n f) = 340 * n := by
  have hlength : (segsUpTo p n f).length = 2 * n := by simp [segsUpTo, segs, Nat.mul_comm]
  rw [hlength, byteCount_segsUpTo]
  omega

/-- Settles O39: by the transactions and bytes of each operation. -/
theorem operationMinimumTimes : Obligations.OperationMinimumTimes := by
  unfold Obligations.OperationMinimumTimes
  intro s hs
  refine ⟨fun hd e b n hlow hhigh => exec_minMicros rfl hs (checkInit_eq_none.mpr ⟨hd, hlow, hhigh⟩) rfl, fun hd => ?_⟩
  have hc := checkInitialized_of_initDone hd
  refine ⟨fun f => exec_minMicros rfl hs hc rfl, fun l => exec_minMicros rfl hs hc rfl,
    fun p x => exec_minMicros rfl hs hc rfl, fun p d => exec_minMicros rfl hs hc rfl,
    fun f => exec_minMicros rfl hs hc rfl, fun hsize v z d hv => ?_, fun _ => ?_⟩
  · refine exec_minMicros rfl hs (checkNumber_eq_none hd hv) ?_
    rw [sends, passOver, segsUpTo_micros, patterns_length hsize]
  · exact exec_minMicros rfl hs hc (segsUpTo_micros _ _ _)

/-! ### Instances -/

/-- Settles O40. -/
theorem instancesAreIndependent : Obligations.InstancesAreIndependent := by
  unfold Obligations.InstancesAreIndependent
  intro n ss tt h
  unfold stepInstance at h
  cases hn : ss[n]? with
  | none =>
    rw [hn] at h
    obtain rfl := Host.Outcome.next.inj h
    exact ⟨rfl, fun _ _ => rfl, by simp⟩
  | some s =>
    simp only [hn] at h
    cases hstep : step s with
    | next t =>
      rw [hstep] at h
      obtain rfl := Host.Outcome.next.inj h
      refine ⟨List.length_set, fun m hm => List.getElem?_set_ne (Ne.symm hm), ?_⟩
      rintro _ ⟨⟩
      obtain ⟨hlt, _⟩ := List.getElem?_eq_some_iff.mp hn
      exact ⟨t, hstep, List.getElem?_set_self hlt⟩
    | fault r => cases r
    | refused r => simp [hstep] at h

/-- Settles O53. -/
theorem createdInstanceIsNew : Obligations.CreatedInstanceIsNew := by
  unfold Obligations.CreatedInstanceIsNew
  intro ss
  exact ⟨List.length_append, List.getElem?_concat_length, fun n hn => List.getElem?_append_left hn⟩

end Sys2Proof.Machine
end

section
/-! PROOFS. What a receiver makes of the trace: the display shadow of R67 under the default parameters, and INIT's own
transaction after its line set-up (20_memory.md section 7, 70_reset_and_hazards.md section 2). -/

namespace Sys2Proof.Machine

/-! ### The shadow of transactions -/

theorem shadow_after_append (p : Params) (w : Shadow) (ts us : List (List SeenByte)) :
    w.after p (ts ++ us) = (w.after p ts).after p us := by
  induction ts generalizing w with
  | nil => rfl
  | cons t ts ih => exact ih _

/-- The shadow of a framed trace after more transactions (R60, R67). -/
theorem shadow_append {g : Free} {trace : List Event} (hidle : (observe g trace).busIdle) (p : Params)
    (ts : List (List Byte)) (acks : List Bool) (hl : acks.length = byteCount ts) :
    shadow p g (trace ++ framesEvents ts acks) = (shadow p g trace).after p (seenFrames ts acks) := by
  rw [shadow, observe_append, (sees_frames_of_idle g ts acks hl hidle).closed, shadow_after_append]
  rfl

/-- The shadow with a pattern at the masked position and in fixed-address mode (R67). -/
def Shadow.showing (w : Shadow) (position : Nat) (x : Byte) : Shadow :=
  { w with mode := some (dataCommand Params.defaults), shown := w.shown.setIfInBounds position (some x) }

/-- SEGS under the default parameters: the data command sets the mode, and the address its pattern (R67, R94). -/
theorem shadow_after_segs (w : Shadow) (position x : Byte) (acks : List Bool) (hl : acks.length = 3) :
    w.after Params.defaults (seenFrames (segs Params.defaults position x) acks) =
      w.showing (position.toNat % 4) x := by
  obtain ⟨a, b, c, rfl⟩ := List.length_eq_three.mp hl
  have hseen : seenFrames (segs Params.defaults position x) [a, b, c] =
      [[⟨dataCommand Params.defaults, some a⟩],
       [⟨addressCommand Params.defaults position, some b⟩, ⟨x, some c⟩]] := rfl
  simp [hseen, Shadow.after, Shadow.transaction, decodeWire_dataCommand, decodeWire_addressCommand, Shadow.showing]

theorem framedTrace_of_invariant {s : State} (hs : Invariant s) (hd : s.initDone = true) : framedTrace s.trace := by
  obtain ⟨_, _, _, _, hold⟩ := hs
  obtain ⟨_, _, _, _, _, hframed⟩ := hold hd
  exact hframed

theorem size_le_of_invariant {s : State} (hs : Invariant s) (hd : s.initDone = true) : s.size ≤ 4 := by
  obtain ⟨_, _, _, _, hold⟩ := hs
  obtain ⟨_, _, _, hhigh, _⟩ := hold hd
  exact hhigh

/-- The shadow after a request that completes once INIT has (R67). -/
theorem shadow_completes {i : Instr} {s t : State} (g : Free) (hs : Invariant s) (hd : s.initDone = true)
    (hp : s.params = Params.defaults) (hc : checkOf i s = none) (ht : Completes i s t) :
    shadow t.params g t.trace =
      (shadow s.params g s.trace).after Params.defaults (seenFrames (sends i s) (draws (byteCount (sends i s)) s)) := by
  obtain ⟨_, _, hseen⟩ := framedTrace_of_invariant hs hd
  obtain ⟨_, _, _, _, hnew, _⟩ | ⟨hi, _⟩ := check_cases hc
  · exact absurd (hd.symm.trans hnew) (by decide)
  · rw [ht.trace, ht.params, leadEvents_of_not_init hi, List.append_nil, hp]
    exact shadow_append (hseen g).1 _ _ _ (draws_length _ s)

/-- The shadow after a request that sends SEGS once. -/
theorem shadow_completes_segs {i : Instr} {s t : State} {position x : Byte} (g : Free) (hs : Invariant s)
    (hd : s.initDone = true) (hp : s.params = Params.defaults) (hc : checkOf i s = none) (ht : Completes i s t)
    (hi : sends i s = segs Params.defaults position x) :
    shadow t.params g t.trace = (shadow s.params g s.trace).showing (position.toNat % 4) x := by
  rw [shadow_completes g hs hd hp hc ht, hi]
  exact shadow_after_segs _ _ _ _ (draws_length 3 s)

/-- Settles O46: the two transactions of SEGS after a framed trace. -/
theorem shadowShowsTheSegmentsSent : Obligations.ShadowShowsTheSegmentsSent := by
  unfold Obligations.ShadowShowsTheSegmentsSent
  intro position pattern s g hs hd hp
  have hc : checkOf (.displaySegments position pattern) s = none := checkInitialized_of_initDone hd
  obtain ⟨t, ht, hcompletes⟩ := exec_completes rfl hs.1 hc
  exact ⟨t, ht, shadow_completes_segs g hs hd hp hc hcompletes (by rw [sends, hp])⟩

/-! ### CLEAR and one digit -/

/-- Transactions read one after the other, with their own levels. -/
theorem seenFrames_append (ts us : List (List Byte)) (as bs : List Bool) (h : as.length = byteCount ts) :
    seenFrames (ts ++ us) (as ++ bs) = seenFrames ts as ++ seenFrames us bs := by
  induction ts generalizing as with
  | nil =>
    obtain rfl := List.length_eq_zero_iff.mp h
    rfl
  | cons t ts ih =>
    rw [byteCount_cons] at h
    have hl : t.length ≤ as.length := by omega
    simp [seenFrames, List.take_append_of_le_length hl, List.drop_append_of_le_length hl,
      ih (as.drop t.length) (by simp; omega)]

theorem segsUpTo_succ (p : Params) (n : Nat) (f : Nat → Byte) :
    segsUpTo p (n + 1) f = segsUpTo p n f ++ segs p (BitVec.ofNat 8 n) (f n) := by
  simp [segsUpTo, List.range_succ]

theorem showing_getElem (w : Shadow) {position : Nat} (hp : position < 4) (x : Byte) (i : Nat) :
    (w.showing position x).shown[i]? = if i = position then some (some x) else w.shown[i]? := by
  by_cases hi : i = position
  · subst hi
    simp [Shadow.showing, hp]
  · simp [Shadow.showing, hi, Ne.symm hi]

/-- A pass over the positions shows each its pattern (R67, R210). -/
theorem shadow_after_segsUpTo (w : Shadow) {n : Nat} (hn : n ≤ 4) (f : Nat → Byte) (acks : List Bool)
    (hl : acks.length = 3 * n) (i : Nat) :
    (w.after Params.defaults (seenFrames (segsUpTo Params.defaults n f) acks)).shown[i]? =
      if i < n then some (some (f i)) else w.shown[i]? := by
  induction n generalizing acks with
  | zero => rfl
  | succ n ih =>
    have hsplit := seenFrames_append (segsUpTo Params.defaults n f) (segs Params.defaults (BitVec.ofNat 8 n) (f n))
      (acks.take (3 * n)) (acks.drop (3 * n)) (by rw [byteCount_segsUpTo]; simp; omega)
    have hmod : (BitVec.ofNat 8 n).toNat % 4 = n := by simp; omega
    rw [List.take_append_drop] at hsplit
    rw [segsUpTo_succ, hsplit, shadow_after_append, shadow_after_segs _ _ _ _ (by simp; omega), hmod,
      showing_getElem _ (by omega), ih (by omega) _ (by simp; omega)]
    by_cases hi : i = n
    · subst hi
      simp
    · rw [if_neg hi]
      exact if_congr (by omega) rfl rfl

/-- CLEAR leaves no colon bit to merge (R210). -/
theorem digitByte_of_no_colon (p : Params) (position digit : Byte) :
    digitByte p 0x00 position digit = segOf p digit.toNat := by
  have hzero : (0x00 : Byte) &&& Config.dpBit = 0x00 := rfl
  rw [digitByte, hzero]
  split
  · exact BitVec.or_zero
  · rfl

/-- What DISPLAY_DIGIT sends where CLEAR has emptied the cache. -/
theorem sends_digit_after_clear {t : State} (hp : t.params = Params.defaults) (hseg1 : t.seg1 = 0x00)
    (position digit : Byte) :
    sends (.displayDigit position digit) t = segs Params.defaults position (segOf Params.defaults digit.toNat) := by
  rw [sends, hseg1, hp, digitByte_of_no_colon]

/-- The digits 0 to 9 of the default table are lit, and no other value is (R86, C9). -/
theorem segOf_defaults_ne_blank (digit : Byte) : segOf Params.defaults digit.toNat ≠ 0x00 ↔ digit.toNat < 10 := by
  revert digit; decide

/-- Settles O47: the pass of CLEAR, and then one SEGS. -/
theorem clearThenDigitShowsOneDigit : Obligations.ClearThenDigitShowsOneDigit := by
  unfold Obligations.ClearThenDigitShowsOneDigit
  intro position digit s g hs hd hp hsize
  have hc : checkOf .clear s = none := checkInitialized_of_initDone hd
  obtain ⟨t, ht, hclear⟩ := exec_completes rfl hs.1 hc
  have htinv := completes_invariant hs hc hclear
  have htp := hclear.params.trans hp
  have hc' : checkOf (.displayDigit position digit) t = none := checkInitialized_of_initDone hclear.initDone
  obtain ⟨u, hu, hdigit⟩ := exec_completes rfl hclear.seq hc'
  refine ⟨t, u, ht, hu, fun i hi => ?_, hp ▸ segOf_defaults_ne_blank digit⟩
  have hhigh := size_le_of_invariant hs hd
  have hshown := congrArg (·.shown[i]?) (shadow_completes_segs g htinv hclear.initDone htp hc' hdigit
    (sends_digit_after_clear htp hclear.seg1 position digit))
  rw [hshown, showing_getElem _ (by omega), hp]
  by_cases hposition : i = position.toNat % 4
  · rw [if_pos hposition, if_pos hposition]
  · have hblank := congrArg (·.shown[i]?) (shadow_completes g hs hd hp hc hclear)
    rw [if_neg hposition, if_neg hposition, hblank, sends, hp,
      shadow_after_segsUpTo _ hhigh _ _ (by rw [draws_length, byteCount_segsUpTo]), if_pos hi]

/-! ### INIT's own transaction -/

/-- The observer has completed no byte: it has at most `n` bits of one, and every transaction it closed is empty. -/
structure Obs.NoByte (o : Obs) (n : Nat) : Prop where
  bytes : o.bytes = []
  bits : o.bits.length ≤ n
  closed : ∀ x ∈ o.closed, x = []

/-- A byte needs nine clocks, so that fewer events complete none (R66). -/
theorem event_noByte (g : Free) {o : Obs} {n : Nat} (h : o.NoByte n) (hn : n < 8) (e : Event) :
    (o.event g e).NoByte (n + 1) := by
  obtain ⟨hbytes, hbits, hclosed⟩ := h
  have hlt : o.bits.length < 8 := by omega
  have hedge : ∀ (sa : Option Bool) (c d : Bool), (({ o with sampled := sa } : Obs).edge c d).NoByte (n + 1) := by
    intro sa c d
    unfold Obs.edge
    split
    · exact ⟨rfl, Nat.zero_le _, hclosed⟩
    · split
      · refine ⟨rfl, Nat.zero_le _, fun x hx => ?_⟩
        cases hf : o.framed <;> simp [hf, hbytes] at hx
        · exact hclosed x hx
        · exact hx.elim (hclosed x) id
      · split
        · simp only [Obs.clock, hlt, if_true]
          exact ⟨hbytes, by simpa using hbits, hclosed⟩
        · exact ⟨hbytes, Nat.le_succ_of_le hbits, hclosed⟩
  exact ⟨(hedge _ _ _).bytes, (hedge _ _ _).bits, (hedge _ _ _).closed⟩

theorem replay_noByte (g : Free) (es : List Event) {o : Obs} {n : Nat} (h : o.NoByte n) (hn : n + es.length ≤ 8) :
    (o.replay g es).NoByte (n + es.length) := by
  induction es generalizing o n with
  | nil => exact h
  | cons e es ih =>
    rw [List.length_cons] at hn ⊢
    have hnext := ih (event_noByte g h (by omega) e) (by omega)
    rwa [Nat.add_right_comm] at hnext

/-- INIT's line set-up is too short for a byte (R264). -/
theorem observe_setupEvents_noByte (g : Free) : (observe g setupEvents).NoByte 4 :=
  replay_noByte g setupEvents (n := 0) ⟨rfl, Nat.le_refl 0, by simp [Obs.initial]⟩ (by decide)

/-- Settles O48: one transaction after the line set-up, which is too short to hold a byte itself. -/
theorem initFramesItsByte : Obligations.InitFramesItsByte := by
  unfold Obligations.InitFramesItsByte
  intro enabled brightness size s g hs hd htrace hlow hhigh
  obtain ⟨t, ht, hwhole⟩ := exec_init (enabled := enabled) (brightness := brightness) hs hd hlow hhigh
  have hack : t.ack = draw s := congrArg State.ack hwhole
  have hframe : t.trace = setupEvents ++
      frameEvents [displayCommand s.params (cfg s.params enabled brightness)] [t.ack] := by
    have htrace' : t.trace = s.trace ++ setupEvents ++ framesEvents [[_]] [draw s] := congrArg State.trace hwhole
    rw [htrace', htrace, hack, framesEvents_single _ _ rfl, List.nil_append]
  have hseen := sees_frame_of_setup g [displayCommand s.params (cfg s.params enabled brightness)] [t.ack] rfl
  refine ⟨t, ht, ?_⟩
  rw [hframe, observe_append]
  exact ⟨hseen.idle, hseen.starts, hseen.stops, hseen.closed, (observe_setupEvents_noByte g).closed⟩

/-! ### What nothing decides before START -/

/-- Settles O49: both lines low throughout; CLK high and DIO falling; CLK high and DIO rising, at the first event. -/
theorem preInitConditionsAreOpen : Obligations.PreInitConditionsAreOpen := by
  unfold Obligations.PreInitConditionsAreOpen
  exact ⟨⟨fun _ _ => false, by decide⟩, ⟨fun n l => decide (n = 0 ∨ l = .clk), by decide⟩,
    ⟨fun n l => decide (n ≠ 0 ∨ l = .clk), by decide⟩⟩

end Sys2Proof.Machine
end
